-- ==== Sys2Proof/Word.lean ====
section
/-! DEFINITION. The word types of the block: the 32-bit command and response word, the byte, the 27-bit pulse
duration and the 16-bit register, all unsigned (spec/00_scope.md R6, R7). -/

namespace Sys2Proof

/-- A command word, a response word, a register as read: 32 bits (spec/30_encoding.md R80, R91). -/
abbrev Word := BitVec 32

/-- A byte of a frame: 8 bits (spec/20_memory.md R60). -/
abbrev Byte := BitVec 8

/-- A pulse duration in microseconds: 27 bits (spec/00_scope.md R6, "durations are 27 bits"). -/
abbrev Duration := BitVec 27

/-- A 16-bit register or counter (spec/10_state.md R27, R29, R31, R32). -/
abbrev Half := BitVec 16

end Sys2Proof
end

