-- ==== Sys2Proof/Syntax.lean ====
section
/-! DEFINITION. The command set: one constructor of `Instr` per row of spec/opcode_table.json, and the operand types that
name the values of the one- and two-bit fields. -/

namespace Sys2Proof

/-- The line level of a pulse record, field `L` (spec/30_encoding.md R83): 0 low, 1 high. -/
inductive Level where
  | low
  | high
  deriving DecidableEq, Repr

/-- The packet register a command's field `p` selects (spec/10_state.md R23): 0 `RXP`, 1 `TXP`. -/
inductive PktSel where
  | rx
  | tx
  deriving DecidableEq, Repr

/-- The source codes 0 to 3 of the field `src` (spec/10_state.md R24). -/
inductive Source where
  | unknown
  | heater
  | controller
  | localOrigin
  deriving DecidableEq, Repr

/-- The slot packet `SRDB` reads, its field `which` (spec/43_demux.md R188): 0 `cur`, 1 `prev`. -/
inductive Which where
  | cur
  | prev
  deriving DecidableEq, Repr

/-- The 26 commands of the block (spec/30_encoding.md R88), each with its operands in the order of the assembler forms of
R92. -/
inductive Instr where
  /-- NOP, spec/44_control_regs.md R210. -/
  | nop
  /-- PULSE L, D, spec/41_pulse_codec.md R102. -/
  | pulse (l : Level) (d : Duration)
  /-- PNEW p, src, spec/42_packet_framer.md R150. -/
  | pnew (p : PktSel) (src : Source)
  /-- PUSH p, val, R151. -/
  | push (p : PktSel) (val : Byte)
  /-- WRB p, idx, val, R152. -/
  | wrb (p : PktSel) (idx val : Byte)
  /-- RDB p, idx, R153. -/
  | rdb (p : PktSel) (idx : Byte)
  /-- PINFO p, R154. -/
  | pinfo (p : PktSel)
  /-- PTIME p, R155. -/
  | ptime (p : PktSel)
  /-- PAGE p, R156. -/
  | page (p : PktSel)
  /-- INV p, R157. -/
  | inv (p : PktSel)
  /-- BREV p, R158. -/
  | brev (p : PktSel)
  /-- CKGEN p [, INV], R159. -/
  | ckgen (p : PktSel) (inverted : Bool)
  /-- CKCALC p, R160. -/
  | ckcalc (p : PktSel)
  /-- PCOPY p, R161. -/
  | pcopy (p : PktSel)
  /-- REG val, mask, lensel, spec/43_demux.md R182. -/
  | reg (val mask : Byte) (lensel : BitVec 2)
  /-- DISP p, R183. -/
  | disp (p : PktSel)
  /-- XFER slot, R185. -/
  | xfer (slot : BitVec 4)
  /-- SINFO slot, R187. -/
  | sinfo (slot : BitVec 4)
  /-- SRDB slot, which, idx, R188. -/
  | srdb (slot : BitVec 4) (which : Which) (idx : Byte)
  /-- SLOAD slot, p, R189. -/
  | sload (slot : BitVec 4) (p : PktSel)
  /-- ENC p, spec/41_pulse_codec.md R115. -/
  | enc (p : PktSel)
  /-- TXPOP, R117. -/
  | txpop
  /-- TXABORT, R118. -/
  | txabort
  /-- RDREG r, spec/44_control_regs.md R211. -/
  | rdreg (r : BitVec 4)
  /-- WRREG r, v, R212. -/
  | wrreg (r : BitVec 4) (v : Half)
  /-- CLRST v, R213. -/
  | clrst (v : Half)
  deriving DecidableEq, Repr

/-- The bit of the field `L` (spec/30_encoding.md R83). -/
def Level.bit : Level → BitVec 1
  | .low => 0#1
  | .high => 1#1

/-- The bit of the field `p` (spec/10_state.md R23). -/
def PktSel.bit : PktSel → BitVec 1
  | .rx => 0#1
  | .tx => 1#1

/-- The register that is not `p`: `PKT[1 - p]` (spec/42_packet_framer.md R161). -/
def PktSel.other : PktSel → PktSel
  | .rx => .tx
  | .tx => .rx

/-- The code of a source (spec/10_state.md R24). -/
def Source.code : Source → BitVec 2
  | .unknown => 0#2
  | .heater => 1#2
  | .controller => 2#2
  | .localOrigin => 3#2

/-- The bit of the field `which` (spec/43_demux.md R188). -/
def Which.bit : Which → BitVec 1
  | .cur => 0#1
  | .prev => 1#1

end Sys2Proof
end

