-- ==== Sys2Proof/WellFormed.lean ====
section
/-! DEFINITION. When a command is well formed: every operand can stand in the command's word. The operand types already
hold exactly the values of their fields; the one operand with bits that must be 0 is CLRST's clear mask. -/

namespace Sys2Proof

/-- The clear mask of CLRST uses bits 0, 1, 2, 14 and 15; bits [13:3] must be 0 (spec/44_control_regs.md R213). -/
def clrstMaskOk (v : Half) : Bool := v.extractLsb' 3 11 == 0#11

/-- A command whose operands its format admits (spec/30_encoding.md R83 to R88). Field values that are well formed but out
of range (R90) stay well formed: the command's own rule refuses them. -/
def Instr.wellFormed : Instr → Bool
  | .clrst v => clrstMaskOk v
  | .nop => true
  | .pulse _ _ => true
  | .pnew _ _ => true
  | .push _ _ => true
  | .wrb _ _ _ => true
  | .rdb _ _ => true
  | .pinfo _ => true
  | .ptime _ => true
  | .page _ => true
  | .inv _ => true
  | .brev _ => true
  | .ckgen _ _ => true
  | .ckcalc _ => true
  | .pcopy _ => true
  | .reg _ _ _ => true
  | .disp _ => true
  | .xfer _ => true
  | .sinfo _ => true
  | .srdb _ _ _ => true
  | .sload _ _ => true
  | .enc _ => true
  | .txpop => true
  | .txabort => true
  | .rdreg _ => true
  | .wrreg _ _ => true

end Sys2Proof
end

