-- ==== Sys2Proof/Decode.lean ====
section
/-! DEFINITION. The decoder from a 32-bit command word to a command or a named reason why the word is illegal, and the
encoder back, both written from the format tables of spec/30_encoding.md R82 to R88. -/

namespace Sys2Proof

/-- The field `w[lo+n-1:lo]` (spec/00_scope.md R7). -/
def bits (w : Word) (lo n : Nat) : BitVec n := w.extractLsb' lo n

/-- A field value put at bit `pos` of a word that is 0 elsewhere: the term `x << pos` of the encodings. -/
def fld {n : Nat} (x : BitVec n) (pos : Nat) : Word := x.setWidth 32 <<< pos

/-- Why a word is illegal (spec/30_encoding.md R89). -/
inductive DecodeError where
  /-- `op` is 0x6 to 0xF (R81). Safe: the block answers ILLEGAL. -/
  | reservedOpcode
  /-- `op` is 0 and the word is not 0x00000000 (R82). Safe: the block answers ILLEGAL. -/
  | nopNotZero
  /-- `sub` is a reserved sub-opcode of its group (R88). Safe: the block answers ILLEGAL. -/
  | reservedSub
  /-- A bit the command's format marks "must be 0" is 1 (R84 to R87). Safe: the block answers ILLEGAL. -/
  | mustBeZero
  deriving DecidableEq, Repr

/-- The level a bit stands for (spec/30_encoding.md R83). -/
def levelOf (b : BitVec 1) : Level := if b = 0#1 then .low else .high

/-- The packet register a bit selects (spec/10_state.md R23). -/
def pktSelOf (b : BitVec 1) : PktSel := if b = 0#1 then .rx else .tx

/-- The slot packet a bit selects (spec/43_demux.md R188). -/
def whichOf (b : BitVec 1) : Which := if b = 0#1 then .cur else .prev

/-- The source a code stands for (spec/10_state.md R24). -/
def sourceOf (c : BitVec 2) : Source :=
  if c = 0#2 then .unknown else if c = 1#2 then .heater else if c = 2#2 then .controller else .localOrigin

/-- `i` when the "must be 0" bits of its format are 0, else illegal (spec/30_encoding.md R89). -/
def whenZero (ok : Bool) (i : Instr) : Except DecodeError Instr :=
  if ok then .ok i else .error .mustBeZero

/-- Format K, the packet framer (spec/30_encoding.md R84, R88): bits [22:18] are reserved; `src`, `idx`, `val` must be 0
where the command does not use them; CKGEN uses bit 0 of `val` only. -/
def decodeK (w : Word) : Except DecodeError Instr :=
  let p := pktSelOf (bits w 23 1)
  let rsv := bits w 18 5 == 0#5
  let noSrc := bits w 16 2 == 0#2
  let noIdx := bits w 8 8 == 0#8
  let noVal := bits w 0 8 == 0#8
  match (bits w 24 4).toNat with
  | 0x0 => whenZero (rsv && noIdx && noVal) (.pnew p (sourceOf (bits w 16 2)))
  | 0x1 => whenZero (rsv && noSrc && noIdx) (.push p (bits w 0 8))
  | 0x2 => whenZero (rsv && noSrc) (.wrb p (bits w 8 8) (bits w 0 8))
  | 0x3 => whenZero (rsv && noSrc && noVal) (.rdb p (bits w 8 8))
  | 0x4 => whenZero (rsv && noSrc && noIdx && noVal) (.pinfo p)
  | 0x5 => whenZero (rsv && noSrc && noIdx && noVal) (.ptime p)
  | 0x6 => whenZero (rsv && noSrc && noIdx && noVal) (.page p)
  | 0x7 => whenZero (rsv && noSrc && noIdx && noVal) (.inv p)
  | 0x8 => whenZero (rsv && noSrc && noIdx && noVal) (.brev p)
  | 0x9 => whenZero (rsv && noSrc && noIdx && bits w 1 7 == 0#7) (.ckgen p (bits w 0 1 == 1#1))
  | 0xA => whenZero (rsv && noSrc && noIdx && noVal) (.ckcalc p)
  | 0xB => whenZero (rsv && noSrc && noIdx && noVal) (.pcopy p)
  | _ => .error .reservedSub

/-- Format D, the demultiplexer (spec/30_encoding.md R85, R88): bit 18 is reserved; `slot`, `q`, `lensel`, `mask`/`idx`
and `val` must be 0 where the command does not use them. -/
def decodeD (w : Word) : Except DecodeError Instr :=
  let slot := bits w 20 4
  let noSlot := slot == 0#4
  let noQ := bits w 19 1 == 0#1
  let rsv := bits w 18 1 == 0#1
  let noLensel := bits w 16 2 == 0#2
  let noIdx := bits w 8 8 == 0#8
  let noVal := bits w 0 8 == 0#8
  match (bits w 24 4).toNat with
  | 0x0 => whenZero (noSlot && noQ && rsv) (.reg (bits w 0 8) (bits w 8 8) (bits w 16 2))
  | 0x1 => whenZero (noSlot && rsv && noLensel && noIdx && noVal) (.disp (pktSelOf (bits w 19 1)))
  | 0x2 => whenZero (noQ && rsv && noLensel && noIdx && noVal) (.xfer slot)
  | 0x3 => whenZero (noQ && rsv && noLensel && noIdx && noVal) (.sinfo slot)
  | 0x4 => whenZero (rsv && noLensel && noVal) (.srdb slot (whichOf (bits w 19 1)) (bits w 8 8))
  | 0x5 => whenZero (rsv && noLensel && noIdx && noVal) (.sload slot (pktSelOf (bits w 19 1)))
  | _ => .error .reservedSub

/-- Format T, pulse egress (spec/30_encoding.md R86, R88): bits [22:0] are reserved; only ENC uses `p`. -/
def decodeT (w : Word) : Except DecodeError Instr :=
  let noP := bits w 23 1 == 0#1
  let rsv := bits w 0 23 == 0#23
  match (bits w 24 4).toNat with
  | 0x0 => whenZero rsv (.enc (pktSelOf (bits w 23 1)))
  | 0x1 => whenZero (noP && rsv) .txpop
  | 0x2 => whenZero (noP && rsv) .txabort
  | _ => .error .reservedSub

/-- Format R, registers (spec/30_encoding.md R87, R88): bits [23:20] are reserved; RDREG has `v` 0; CLRST has `r` 0 and
`v[13:3]` 0 (spec/44_control_regs.md R213). A WRREG that R89 calls illegal for its register number or value decodes to
`wrreg`, whose meaning answers ILLEGAL as R212 writes it (DESIGN CHOICE, safe, log entry 8). -/
def decodeR (w : Word) : Except DecodeError Instr :=
  let rsv := bits w 20 4 == 0#4
  let r := bits w 16 4
  let v := bits w 0 16
  match (bits w 24 4).toNat with
  | 0x0 => whenZero (rsv && v == 0#16) (.rdreg r)
  | 0x1 => whenZero rsv (.wrreg r v)
  | 0x2 => whenZero (rsv && r == 0#4 && clrstMaskOk v) (.clrst v)
  | _ => .error .reservedSub

/-- The decoder: the major opcode `cmd[31:28]` chooses the format (spec/30_encoding.md R80, R81). -/
def decode (w : Word) : Except DecodeError Instr :=
  match (bits w 28 4).toNat with
  | 0x0 => if w = 0#32 then .ok .nop else .error .nopNotZero
  | 0x1 => .ok (.pulse (levelOf (bits w 27 1)) (bits w 0 27))
  | 0x2 => decodeK w
  | 0x3 => decodeD w
  | 0x4 => decodeT w
  | 0x5 => decodeR w
  | _ => .error .reservedOpcode

/-- A format P word (spec/30_encoding.md R83): also the record word of spec/41_pulse_codec.md R116. -/
def formatP (l : Level) (d : Duration) : Word := fld 0x1#4 28 ||| fld l.bit 27 ||| fld d 0

/-- A format K word (spec/30_encoding.md R84). -/
def formatK (sub : BitVec 4) (p : PktSel) (src : BitVec 2) (idx val : Byte) : Word :=
  fld 0x2#4 28 ||| fld sub 24 ||| fld p.bit 23 ||| fld src 16 ||| fld idx 8 ||| fld val 0

/-- A format D word (spec/30_encoding.md R85). -/
def formatD (sub slot : BitVec 4) (q : BitVec 1) (lensel : BitVec 2) (maskOrIdx val : Byte) : Word :=
  fld 0x3#4 28 ||| fld sub 24 ||| fld slot 20 ||| fld q 19 ||| fld lensel 16 ||| fld maskOrIdx 8 ||| fld val 0

/-- A format T word (spec/30_encoding.md R86). -/
def formatT (sub : BitVec 4) (p : BitVec 1) : Word := fld 0x4#4 28 ||| fld sub 24 ||| fld p 23

/-- A format R word (spec/30_encoding.md R87). -/
def formatR (sub r : BitVec 4) (v : Half) : Word := fld 0x5#4 28 ||| fld sub 24 ||| fld r 16 ||| fld v 0

/-- The word of a command (spec/30_encoding.md R82 to R88). -/
def encode : Instr → Word
  | .nop => 0#32
  | .pulse l d => formatP l d
  | .pnew p src => formatK 0x0#4 p src.code 0#8 0#8
  | .push p val => formatK 0x1#4 p 0#2 0#8 val
  | .wrb p idx val => formatK 0x2#4 p 0#2 idx val
  | .rdb p idx => formatK 0x3#4 p 0#2 idx 0#8
  | .pinfo p => formatK 0x4#4 p 0#2 0#8 0#8
  | .ptime p => formatK 0x5#4 p 0#2 0#8 0#8
  | .page p => formatK 0x6#4 p 0#2 0#8 0#8
  | .inv p => formatK 0x7#4 p 0#2 0#8 0#8
  | .brev p => formatK 0x8#4 p 0#2 0#8 0#8
  | .ckgen p inverted => formatK 0x9#4 p 0#2 0#8 (if inverted then 1#8 else 0#8)
  | .ckcalc p => formatK 0xA#4 p 0#2 0#8 0#8
  | .pcopy p => formatK 0xB#4 p 0#2 0#8 0#8
  | .reg val mask lensel => formatD 0x0#4 0#4 0#1 lensel mask val
  | .disp p => formatD 0x1#4 0#4 p.bit 0#2 0#8 0#8
  | .xfer slot => formatD 0x2#4 slot 0#1 0#2 0#8 0#8
  | .sinfo slot => formatD 0x3#4 slot 0#1 0#2 0#8 0#8
  | .srdb slot which idx => formatD 0x4#4 slot which.bit 0#2 idx 0#8
  | .sload slot p => formatD 0x5#4 slot p.bit 0#2 0#8 0#8
  | .enc p => formatT 0x0#4 p.bit
  | .txpop => formatT 0x1#4 0#1
  | .txabort => formatT 0x2#4 0#1
  | .rdreg r => formatR 0x0#4 r 0#16
  | .wrreg r v => formatR 0x1#4 r v
  | .clrst v => formatR 0x2#4 0#4 v

/-- The word on the `cmd` port for the low `nbits` bits of `w`; every bit above them is 0. -/
def wordOfTable (nbits w : Nat) : Word := BitVec.ofNat 32 (w % 2 ^ nbits)

/-- The command the decoder reads from the instruction whose bits are `w`, numbered as spec/opcode_table.json numbers
them (one 32-bit word, R80). -/
def decodeTableWord (nbits w : Nat) : Option Instr := (decode (wordOfTable nbits w)).toOption

end Sys2Proof
end

