-- ==== Sys2Proof/Config.lean ====
section
/-! DEFINITION. The implementation parameters of spec/00_scope.md R6, their constraints, the reference configuration of
spec/95_test_vectors.md, and the one free value of the model: the bytes `unspecified()` draws. -/

namespace Sys2Proof

/-- The parameters "the model takes as arguments" (spec/00_scope.md R6). A state carries them, no step changes them, and
the statements hold for every legal choice. The timing constants are durations, so they are 27 bits wide (DEDUCED, log
entry 9). -/
structure Params where
  /-- `CAP`: packet buffer capacity in bytes. -/
  cap : Nat
  /-- `LONG_LEN`: data_len of a long frame. -/
  longLen : Nat
  /-- `SHORT_LEN`: data_len of a short frame. -/
  shortLen : Nat
  /-- `NSLOT`: number of matcher slots. -/
  nslot : Nat
  /-- `T_HDR_LOW_US`: nominal heading low pulse. -/
  hdrLow : Duration
  /-- `T_HDR_HIGH_US`: nominal heading high pulse. -/
  hdrHigh : Duration
  /-- `T_BIT_LOW_US`: nominal bit low pulse. -/
  bitLow : Duration
  /-- `T_ONE_HIGH_US`: nominal high pulse of a `1` bit. -/
  oneHigh : Duration
  /-- `T_ZERO_HIGH_US`: nominal high pulse of a `0` bit. -/
  zeroHigh : Duration
  /-- `T_END_US`: a high pulse strictly longer ends the frame. -/
  endGap : Duration
  /-- `THRESH_US`: the glitch floor. -/
  thresh : Duration
  /-- `T_TRAIL_LOW_US`: trailing low pulse emitted by the encoder. -/
  trailLow : Duration
  /-- `T_TXGAP_US`: idle high record the encoder emits last. -/
  txGap : Duration
  /-- `TOL_PCT`: reset value of CFG.TOL. -/
  tolReset : BitVec 7
  deriving DecidableEq, Repr

/-- The constraint column of spec/00_scope.md R6, one conjunct per cell (`T_TXGAP_US < 2^27` holds by its type). -/
abbrev Params.Legal (p : Params) : Prop :=
  (2 ≤ p.cap ∧ p.cap ≤ 255) ∧
  (2 ≤ p.shortLen ∧ p.shortLen < p.longLen ∧ p.longLen ≤ p.cap) ∧
  (1 ≤ p.nslot ∧ p.nslot ≤ 16) ∧
  p.thresh ≤ p.hdrLow ∧ p.thresh ≤ p.hdrHigh ∧ p.thresh ≤ p.bitLow ∧ p.thresh ≤ p.zeroHigh ∧
  2 * p.zeroHigh.toNat < p.oneHigh.toNat ∧
  2 * p.oneHigh.toNat < p.endGap.toNat ∧
  0 < p.thresh.toNat ∧
  p.trailLow = p.bitLow ∧
  p.endGap < p.txGap ∧
  p.tolReset ≤ 100#7

/-- The reference configuration of spec/95_test_vectors.md with the default timing of spec/00_scope.md R6. The values of
CAP, LONG_LEN, SHORT_LEN and NSLOT are OPEN in the spec (DESIGN CHOICE, unsafe, log entry 2). -/
def Params.reference : Params where
  cap := 8
  longLen := 4
  shortLen := 3
  nslot := 4
  hdrLow := 9000#27
  hdrHigh := 5000#27
  bitLow := 1000#27
  oneHigh := 3000#27
  zeroHigh := 1000#27
  endGap := 50000#27
  thresh := 600#27
  trailLow := 1000#27
  txGap := 100000#27
  tolReset := 30#7

/-- The byte the `n`-th call of `unspecified()` draws (spec/00_scope.md R9, spec/10_state.md R41): a free value, no proof
can see what it is (log entry 3). -/
opaque Config.freeByte : Nat → Byte

end Sys2Proof
end

