-- ==== Sys2Proof/Machine/State.lean ====
section
/-! DEFINITION. The state of the block as plain data (spec/10_state.md R21 to R39), the reasons a step can stop, and the
state after reset (spec/70_reset_and_hazards.md R260, R261). -/

namespace Sys2Proof.Machine

/-- The decoder's phase (spec/10_state.md R25). The codes 4 to 7 are never held, so the type
has none for them (DEDUCED, log entry 14). -/
inductive Phase where
  | idle
  | headHigh
  | bitLow
  | bitHigh
  deriving DecidableEq, Repr

/-- The 3-bit code of a phase (spec/10_state.md R25). -/
def Phase.code : Phase → BitVec 3
  | .idle => 0#3
  | .headHigh => 1#3
  | .bitLow => 2#3
  | .bitHigh => 3#3

/-- The cause of a timing violation (spec/60_exceptions.md R234). The codes 7 to 15 are never produced. -/
inductive Cause where
  | none
  | glitch
  | level
  | window
  | partialByte
  | empty
  | tooLong
  deriving DecidableEq, Repr

/-- The 4-bit code of a cause (spec/60_exceptions.md R234). -/
def Cause.code : Cause → BitVec 4
  | .none => 0#4
  | .glitch => 1#4
  | .level => 2#4
  | .window => 3#4
  | .partialByte => 4#4
  | .empty => 5#4
  | .tooLong => 6#4

/-- The response status of a command (spec/60_exceptions.md R230). The codes 7 to 15 are never produced. -/
inductive Status where
  | ok
  | illegal
  | range
  | regFull
  | regLocked
  | busy
  | absent
  deriving DecidableEq, Repr

/-- The 4-bit code on `rsp_status` (spec/60_exceptions.md R230). -/
def Status.code : Status → BitVec 4
  | .ok => 0#4
  | .illegal => 1#4
  | .range => 2#4
  | .regFull => 3#4
  | .regLocked => 4#4
  | .busy => 5#4
  | .absent => 6#4

/-- A slot's length select (spec/10_state.md R28); 3 is never held. -/
inductive LenSel where
  | any
  | long
  | short
  deriving DecidableEq, Repr

/-- The 2-bit code of a length select (spec/10_state.md R28). -/
def LenSel.code : LenSel → BitVec 2
  | .any => 0#2
  | .long => 1#2
  | .short => 2#2

/-- A packet register, type `PKT` (spec/10_state.md R22). `data` has CAP bytes in every state reached from reset. -/
structure Packet where
  data : List Byte
  len : Byte
  time : Word
  src : Source
  ovf : Bool
  deriving DecidableEq, Repr

/-- The reset value of a packet register (spec/10_state.md R22). Its bytes are unspecified there and no command can observe
them (R41); zero is DESIGN CHOICE, unsafe, log entry 4. -/
def Packet.reset (cap : Nat) : Packet where
  data := List.replicate cap 0#8
  len := 0#8
  time := 0#32
  src := .unknown
  ovf := false

/-- The pulse decoder's state (spec/10_state.md R25): `phase`, `tbits`, `SR`, `ABUF`. -/
structure Decoder where
  phase : Phase
  tbits : Half
  sr : Byte
  abuf : List Byte
  deriving DecidableEq, Repr

/-- The pulse encoder's state (spec/10_state.md R27): `tx_active`, `cursor`, `total`, `txn`, `TXBUF`. -/
structure Encoder where
  active : Bool
  cursor : Half
  total : Half
  txn : Byte
  txbuf : List Byte
  deriving DecidableEq, Repr

/-- One matcher slot (spec/10_state.md R28). -/
structure Slot where
  val : Byte
  mask : Byte
  lensel : LenSel
  hasCur : Bool
  hasPrev : Bool
  cur : Packet
  prev : Packet
  deriving DecidableEq, Repr

/-- The reset value of a slot (spec/10_state.md R28). -/
def Slot.reset (cap : Nat) : Slot where
  val := 0#8
  mask := 0#8
  lensel := .any
  hasCur := false
  hasPrev := false
  cur := Packet.reset cap
  prev := Packet.reset cap

/-- The registry (spec/10_state.md R28): `NREG`, `REG_LOCK`, `slot[0..NSLOT-1]`. -/
structure Registry where
  nreg : BitVec 5
  lock : Bool
  slots : List Slot
  deriving DecidableEq, Repr

/-- The sticky fields of `STATUS` (spec/10_state.md R30). The live fields of the register are computed from the state that
holds them (Machine/Flags.lean). -/
structure Sticky where
  rxReady : Bool
  terr : Bool
  rxOvf : Bool
  lastTerr : Cause
  deriving DecidableEq, Repr

/-- The response port (spec/10_state.md R38): `rsp_status`, `rsp_data`. -/
structure Response where
  status : Status
  data : Word
  deriving DecidableEq, Repr

/-- A command the host has yet to deliver: its word, and the values the inputs `now_ms` and `rx_src` have when it starts
(spec/10_state.md R38). -/
structure Command where
  word : Word
  nowMs : Word
  rxSrc : Source
  deriving DecidableEq, Repr

/-- What the host does next to the block (spec/10_state.md R38): asserts `rst` between two commands, or issues a command. -/
inductive HostInput where
  | reset
  | command (c : Command)
  deriving DecidableEq, Repr

/-- The whole state. `params`, `inputs` and `freeIdx` are the model's own (log entries 2, 1, 3); the rest is the spec's
(spec/10_state.md R21, "exactly the elements of rules R22 to R37", and the ports of R38). -/
structure State where
  /-- The implementation parameters (spec/00_scope.md R6); no step changes them. -/
  params : Params
  /-- `PKT[0]` (R23). -/
  rxp : Packet
  /-- `PKT[1]` (R23). -/
  txp : Packet
  /-- R25. -/
  dec : Decoder
  /-- R27. -/
  enc : Encoder
  /-- R28. -/
  reg : Registry
  /-- `CFG` (R29). -/
  cfg : Half
  /-- The sticky fields of `STATUS` (R30). -/
  flags : Sticky
  /-- `TERR_CNT` (R31). -/
  terrCnt : Half
  /-- `RXCNT` (R32). -/
  rxCnt : Half
  /-- `LASTDISP` (R34). -/
  lastDisp : Word
  /-- The response of the latest command (R38). -/
  rsp : Response
  /-- `now_ms` as the latest command sampled it (R36, R38). -/
  nowMs : Word
  /-- `rx_src` as the latest command sampled it (R38). -/
  rxSrc : Source
  /-- The host's inputs not yet taken, the next one first. -/
  inputs : List HostInput
  /-- How many `unspecified()` bytes have been drawn. -/
  freeIdx : Nat
  deriving DecidableEq, Repr

/-- The reasons a step stops with a fault: none. "No condition in this core is fatal" and the block takes no trap
(spec/60_exceptions.md R237); every error is a response status. -/
inductive Fault where
  deriving DecidableEq, Repr

/-- The reasons a step is refused. -/
inductive Refusal where
  /-- Raised by an arm of `exec` whose instruction has no meaning yet. Safe: nothing can be proved of its effect. No arm
  raises it in this model. -/
  | notModelled (mnemonic : String)
  deriving DecidableEq, Repr

/-- The state after reset for given parameters (spec/70_reset_and_hazards.md R260, R261). Bytes of buffers: log entry 4;
the response port: log entry 5; the sampled inputs: log entry 6. -/
def State.resetWith (p : Params) : State where
  params := p
  rxp := Packet.reset p.cap
  txp := Packet.reset p.cap
  dec := { phase := .idle, tbits := 0#16, sr := 0#8, abuf := List.replicate p.cap 0#8 }
  enc := { active := false, cursor := 0#16, total := 0#16, txn := 0#8, txbuf := List.replicate p.cap 0#8 }
  reg := { nreg := 0#5, lock := false, slots := List.replicate p.nslot (Slot.reset p.cap) }
  cfg := p.tolReset.setWidth 16
  flags := { rxReady := false, terr := false, rxOvf := false, lastTerr := .none }
  terrCnt := 0#16
  rxCnt := 0#16
  lastDisp := 0x0000FF03#32
  rsp := { status := .ok, data := 0#32 }
  nowMs := 0#32
  rxSrc := .unknown
  inputs := []
  freeIdx := 0

/-- The machine right after reset, in the reference configuration (log entry 2). -/
def State.reset : State := State.resetWith Params.reference

end Sys2Proof.Machine
end

