-- ==== Sys2Proof/Machine/Ops.lean ====
section
/-! DEFINITION. The named operations the meanings share: ending a command, the byte arrays, packet registers and slots,
the free byte, and taking the host's next input. -/

namespace Sys2Proof.Machine

/-- What a command or a step answers. -/
abbrev Result := Host.Outcome State Fault Refusal

/-- The state with `rsp_status` and `rsp_data` driven (spec/10_state.md R38). -/
def State.withRsp (s : State) (st : Status) (d : Word) : State := { s with rsp := { status := st, data := d } }

/-- `respond(v)`: the command ends with status OK and data `v` (spec/00_scope.md R9, spec/30_encoding.md R91). -/
def State.respond (s : State) (d : Word) : Result := .next (s.withRsp .ok d)

/-- `raise <Status>`: the command ends with a status other than OK, data 0, and changes no state (spec/00_scope.md R9,
spec/60_exceptions.md R232). This is the block's only way to report an error: it takes no trap (R237). -/
def State.raise (s : State) (st : Status) : Result := .next (s.withRsp st 0#32)

/-- One byte of a byte array (spec/20_memory.md R60). An index at or past the array's end, which no reached state lets a
command use, reads 0 (log entry 10). -/
def readByte (b : List Byte) (i : Nat) : Byte := b.getD i 0#8

/-- One byte of a byte array written (spec/20_memory.md R60). -/
def writeByte (b : List Byte) (i : Nat) (v : Byte) : List Byte := b.set i v

/-- `for i in 0 .. n-1: dst[i] <- src[i]`. -/
def copyBytes : Nat → List Byte → List Byte → List Byte
  | 0, _, dst => dst
  | _ + 1, _, [] => []
  | n + 1, src, _ :: dst => src.headD 0#8 :: copyBytes n src.tail dst

/-- `for i in 0 .. n-1: b[i] <- f(b[i])`. -/
def mapBytes (f : Byte → Byte) : Nat → List Byte → List Byte
  | 0, b => b
  | _ + 1, [] => []
  | n + 1, x :: b => f x :: mapBytes f n b

/-- `PKT[p]` (spec/10_state.md R23). -/
def State.pkt (s : State) : PktSel → Packet
  | .rx => s.rxp
  | .tx => s.txp

/-- `PKT[p] <- q` (spec/10_state.md R23). -/
def State.setPkt (s : State) (p : PktSel) (q : Packet) : State :=
  match p with
  | .rx => { s with rxp := q }
  | .tx => { s with txp := q }

/-- `slot[i]` (spec/10_state.md R28). An index past the registry, which no reached state lets a command use, reads as an
empty slot (log entry 10). -/
def State.slot (s : State) (i : Nat) : Slot := s.reg.slots.getD i (Slot.reset s.params.cap)

/-- `slot[i] <- v` (spec/10_state.md R28). -/
def State.setSlot (s : State) (i : Nat) (v : Slot) : State :=
  { s with reg := { s.reg with slots := s.reg.slots.set i v } }

/-- The byte this call of `unspecified()` draws (spec/00_scope.md R9; log entry 3). -/
def State.freeByte (s : State) : Byte := Config.freeByte s.freeIdx

/-- The next call of `unspecified()` draws independently (spec/00_scope.md R9; log entry 3). -/
def State.advanceFree (s : State) : State := { s with freeIdx := s.freeIdx + 1 }

/-- A command starts: the host's input is taken and `now_ms` and `rx_src` are sampled (spec/00_scope.md R9,
spec/10_state.md R38). -/
def State.sample (s : State) (c : Command) (rest : List HostInput) : State :=
  { s with nowMs := c.nowMs, rxSrc := c.rxSrc, inputs := rest }

/-- `rst` is asserted between two commands (spec/70_reset_and_hazards.md R260): every state element takes its reset
value. The parameters are the hardware's own, and the draws of `unspecified()` go on (log entry 7). -/
def State.applyReset (s : State) (rest : List HostInput) : State :=
  { State.resetWith s.params with inputs := rest, freeIdx := s.freeIdx }

/-- The host's next input is the command word `w`, with `now_ms` and `rx_src` as last sampled. -/
def State.pend (s : State) (w : Word) : State :=
  { s with inputs := .command { word := w, nowMs := s.nowMs, rxSrc := s.rxSrc } :: s.inputs }

end Sys2Proof.Machine
end

