-- ==== Sys2Proof/Machine/Flags.lean ====
section
/-! DEFINITION. The fields of CFG, the STATUS word with its live fields, the interrupt line, the saturating counters and
the sticky flags (spec/10_state.md R29 to R35, R39; spec/60_exceptions.md R236). -/

namespace Sys2Proof.Machine

/-- A flag as a 1-bit field. -/
def flagBit (b : Bool) : BitVec 1 := if b then 1#1 else 0#1

/-- The checksum reductions CFG.CKALG selects (spec/42_packet_framer.md R140). -/
inductive CkAlg where
  | sum8
  | xor8
  | sum8Eac
  deriving DecidableEq, Repr

/-- `CFG.TOL`, bits [6:0] (spec/10_state.md R29). -/
def cfgTol (c : Half) : Nat := (c.extractLsb' 0 7).toNat

/-- `CFG.CKALG`, bits [9:8], as bits (spec/10_state.md R29). -/
def cfgCkAlgBits (c : Half) : BitVec 2 := c.extractLsb' 8 2

/-- The reduction CFG.CKALG selects (spec/10_state.md R29). The value 3 is refused by WRREG and never held; in a state no
run reaches it would select SUM8_EAC (log entry 10). -/
def cfgCkAlg (c : Half) : CkAlg :=
  if cfgCkAlgBits c = 0#2 then .sum8 else if cfgCkAlgBits c = 1#2 then .xor8 else .sum8Eac

/-- `CFG.IE_RX`, bit [12] (spec/10_state.md R29). -/
def cfgIeRx (c : Half) : Bool := c.getLsbD 12

/-- `CFG.IE_TERR`, bit [13] (spec/10_state.md R29). -/
def cfgIeTerr (c : Half) : Bool := c.getLsbD 13

/-- A CFG value sets a reserved bit: `v[7] | v[11:10] | v[15:14]` is not 0 (spec/44_control_regs.md R212). -/
def cfgReservedSet (v : Half) : Bool :=
  !(v.extractLsb' 7 1 == 0#1 && v.extractLsb' 10 2 == 0#2 && v.extractLsb' 14 2 == 0#2)

/-- A CFG value is out of range: `v[6:0] > 100` or `v[9:8] = 3` (spec/44_control_regs.md R212). -/
def cfgOutOfRange (v : Half) : Bool := decide (100 < cfgTol v) || cfgCkAlgBits v == 3#2

/-- The level output `irq` (spec/10_state.md R39), computed (DEDUCED, log entry 11). -/
def State.irq (s : State) : Bool := (s.flags.rxReady && cfgIeRx s.cfg) || (s.flags.terr && cfgIeTerr s.cfg)

/-- The `STATUS` register with its live fields (spec/10_state.md R30). -/
def State.statusWord (s : State) : Word :=
  fld s.flags.lastTerr.code 16 ||| fld s.dec.phase.code 13 ||| fld s.reg.nreg 8 ||| fld (flagBit s.irq) 5 |||
    fld (flagBit s.reg.lock) 4 ||| fld (flagBit s.enc.active) 3 ||| fld (flagBit s.flags.rxOvf) 2 |||
    fld (flagBit s.flags.terr) 1 ||| fld (flagBit s.flags.rxReady) 0

/-- The `DECBITS` register (spec/10_state.md R33). -/
def State.decBits (s : State) : Word := s.dec.tbits.setWidth 32

/-- The `TXCUR` register, `{total, cursor}` (spec/10_state.md R35). -/
def State.txCur (s : State) : Word := fld s.enc.total 16 ||| fld s.enc.cursor 0

/-- `sat_16(c + 1)` (spec/00_scope.md R8; spec/10_state.md R31, R32). -/
def satInc (c : Half) : Half := BitVec.ofNat 16 (min (c.toNat + 1) 0xFFFF)

/-- A timing-violation abort is recorded (spec/41_pulse_codec.md R110). -/
def State.recordTerr (s : State) (c : Cause) : State :=
  { s with flags := { s.flags with terr := true, lastTerr := c }, terrCnt := satInc s.terrCnt }

/-- A completed frame is recorded; `truncated` when it had more than CAP bytes (spec/41_pulse_codec.md R109). -/
def State.recordRx (s : State) (truncated : Bool) : State :=
  { s with flags := { s.flags with rxReady := true, rxOvf := s.flags.rxOvf || truncated }, rxCnt := satInc s.rxCnt }

/-- The sticky flags and counters the clear mask `v` names are cleared (spec/44_control_regs.md R213). -/
def State.clearSticky (s : State) (v : Half) : State :=
  { s with
    flags :=
      { rxReady := s.flags.rxReady && !v.getLsbD 0
        terr := s.flags.terr && !v.getLsbD 1
        rxOvf := s.flags.rxOvf && !v.getLsbD 2
        lastTerr := if v.getLsbD 1 then .none else s.flags.lastTerr }
    rxCnt := if v.getLsbD 14 then 0#16 else s.rxCnt
    terrCnt := if v.getLsbD 15 then 0#16 else s.terrCnt }

end Sys2Proof.Machine
end

