-- ==== Sys2Proof/Machine/Operands.lean ====
section
/-! DEFINITION. What the operand fields of a command stand for, and when a field value is out of its legal range
(spec/30_encoding.md R90; spec/60_exceptions.md R230). -/

namespace Sys2Proof.Machine

/-- `idx >= CAP` (spec/20_memory.md R65). -/
def State.idxOut (s : State) (idx : Byte) : Bool := decide (s.params.cap ≤ idx.toNat)

/-- `slot >= NSLOT` (spec/60_exceptions.md R230). -/
def State.slotOut (s : State) (slot : BitVec 4) : Bool := decide (s.params.nslot ≤ slot.toNat)

/-- `slot >= NREG`: the slot is not registered (spec/43_demux.md, opening). -/
def State.slotUnregistered (s : State) (slot : BitVec 4) : Bool := decide (s.reg.nreg.toNat ≤ slot.toNat)

/-- The length select a field value stands for; 3 is out of range (spec/30_encoding.md R85). -/
def lenSelOf (c : BitVec 2) : Option LenSel :=
  if c = 0#2 then some .any else if c = 1#2 then some .long else if c = 2#2 then some .short else none

/-- The slot packet `which` names, when the slot has it (spec/43_demux.md R188). -/
def Slot.packet? (sl : Slot) : Which → Option Packet
  | .cur => if sl.hasCur then some sl.cur else none
  | .prev => if sl.hasPrev then some sl.prev else none

/-- The register a register number names, as RDREG reads it; 8 to 15 are reserved (spec/10_state.md R37,
spec/44_control_regs.md R211). -/
def State.readReg (s : State) (r : BitVec 4) : Option Word :=
  match r.toNat with
  | 0 => some (s.cfg.setWidth 32)
  | 1 => some s.statusWord
  | 2 => some (s.terrCnt.setWidth 32)
  | 3 => some (s.rxCnt.setWidth 32)
  | 4 => some s.decBits
  | 5 => some s.lastDisp
  | 6 => some s.txCur
  | 7 => some s.nowMs
  | _ => none

/-- `respond(zext_32(Q.data[idx]))` when `idx < Q.len`, else `respond(zext_32(unspecified()))` (spec/10_state.md R41,
spec/42_packet_framer.md R153, spec/43_demux.md R188). -/
def State.respondByte (s : State) (q : Packet) (idx : Byte) : Result :=
  if idx < q.len then s.respond ((readByte q.data idx.toNat).setWidth 32)
  else s.advanceFree.respond (s.freeByte.setWidth 32)

end Sys2Proof.Machine
end

