-- ==== Sys2Proof/Machine/Codec.lean ====
section
/-! DEFINITION. The pulse timing codec: the decoder PULSE drives and the encoder of ENC, TXPOP and TXABORT
(spec/41_pulse_codec.md). -/

namespace Sys2Proof.Machine

/-- The window test `win(d, N)` at tolerance `tol`, on exact naturals, both edges inclusive (spec/41_pulse_codec.md
R101). -/
def win (tol : Nat) (d n : Duration) : Bool :=
  decide (n.toNat * (100 - tol) ≤ 100 * d.toNat) && decide (100 * d.toNat ≤ n.toNat * (100 + tol))

/-- The window test at the tolerance `CFG.TOL` as it stands (spec/41_pulse_codec.md R101). -/
def State.inWin (s : State) (d n : Duration) : Bool := win (cfgTol s.cfg) d n

/-- The event codes of a PULSE response (spec/41_pulse_codec.md R102). -/
inductive Event where
  | ignored
  | accepted
  | complete
  | aborted
  deriving DecidableEq, Repr

/-- The 2-bit code of an event (spec/41_pulse_codec.md R102). -/
def Event.code : Event → BitVec 2
  | .ignored => 0#2
  | .accepted => 1#2
  | .complete => 2#2
  | .aborted => 3#2

/-- What one pulse record does: the state after it, its event, and the abort cause. -/
structure PulseOut where
  state : State
  ev : Event
  cause : Cause
  deriving DecidableEq, Repr

/-- The phase changes and nothing else. -/
def State.setPhase (s : State) (ph : Phase) : State := { s with dec := { s.dec with phase := ph } }

/-- The partial frame is discarded: IDLE, no bits (spec/41_pulse_codec.md R109, R110). -/
def State.clearFrame (s : State) : State :=
  { s with dec := { s.dec with phase := .idle, tbits := 0#16, sr := 0#8 } }

/-- `abort(c)` (spec/41_pulse_codec.md R110). -/
def State.abort (s : State) (c : Cause) : PulseOut :=
  { state := s.clearFrame.recordTerr c, ev := .aborted, cause := c }

/-- A low record inside the heading-low window, which starts a frame (spec/41_pulse_codec.md R104). -/
def State.startsFrame (s : State) (l : Level) (d : Duration) : Bool := l == .low && s.inWin d s.params.hdrLow

/-- `abort(c); reeval(L, D)` (spec/41_pulse_codec.md R111): the record is examined once more as in phase IDLE. -/
def State.abortReeval (s : State) (c : Cause) (l : Level) (d : Duration) : PulseOut :=
  { state := if s.startsFrame l d then (s.clearFrame.recordTerr c).setPhase .headHigh else s.clearFrame.recordTerr c
    ev := .aborted
    cause := c }

/-- The record is accepted and the phase advances. -/
def State.advance (s : State) (ph : Phase) : PulseOut := { state := s.setPhase ph, ev := .accepted, cause := .none }

/-- The shift register after a bit, MSB first: `((SR << 1) | b) mod 256` (spec/41_pulse_codec.md R108,
spec/20_memory.md R62). -/
def shiftIn (sr : Byte) (b : Bool) : Byte := (sr <<< 1) ||| (if b then 1#8 else 0#8)

/-- `take_bit(b)` (spec/41_pulse_codec.md R108). -/
def State.takeBit (s : State) (b : Bool) : PulseOut :=
  if s.dec.tbits = 0xFFFF#16 then s.abort .tooLong
  else
    let sr := shiftIn s.dec.sr b
    let n := s.dec.tbits.toNat + 1
    let abuf := if n % 8 = 0 ∧ n / 8 ≤ s.params.cap then writeByte s.dec.abuf (n / 8 - 1) sr else s.dec.abuf
    { state := { s with dec := { phase := .bitLow, tbits := s.dec.tbits + 1#16, sr := sr, abuf := abuf } }
      ev := .accepted
      cause := .none }

/-- `RXP` after the completion of a frame of `n` bytes (spec/41_pulse_codec.md R109). -/
def State.delivered (s : State) (n : Nat) : Packet :=
  { data := copyBytes (min n s.params.cap) s.dec.abuf s.rxp.data
    len := BitVec.ofNat 8 (min n s.params.cap)
    time := s.nowMs
    src := s.rxSrc
    ovf := decide (s.params.cap < n) }

/-- `complete()` (spec/41_pulse_codec.md R109). -/
def State.complete (s : State) : PulseOut :=
  if s.dec.tbits = 0#16 then s.abort .empty
  else if s.dec.tbits.toNat % 8 ≠ 0 then s.abort .partialByte
  else
    let n := s.dec.tbits.toNat / 8
    { state := ({ s with rxp := s.delivered n }.recordRx (decide (s.params.cap < n))).clearFrame
      ev := .complete
      cause := .none }

/-- A record in phase IDLE (spec/41_pulse_codec.md R104). -/
def State.pulseIdle (s : State) (l : Level) (d : Duration) : PulseOut :=
  if s.startsFrame l d then s.advance .headHigh else { state := s, ev := .ignored, cause := .none }

/-- A record in phase HEAD_HIGH (spec/41_pulse_codec.md R105). -/
def State.pulseHeadHigh (s : State) (l : Level) (d : Duration) : PulseOut :=
  match l with
  | .low => s.abortReeval .level l d
  | .high =>
    if s.inWin d s.params.hdrHigh then
      { state := { s with dec := { s.dec with phase := .bitLow, tbits := 0#16, sr := 0#8 } }
        ev := .accepted
        cause := .none }
    else s.abortReeval .window l d

/-- A record in phase BIT_LOW (spec/41_pulse_codec.md R106). -/
def State.pulseBitLow (s : State) (l : Level) (d : Duration) : PulseOut :=
  match l with
  | .low => if s.inWin d s.params.bitLow then s.advance .bitHigh else s.abortReeval .window l d
  | .high => if s.params.endGap < d then s.complete else s.abortReeval .level l d

/-- A record in phase BIT_HIGH, in the priority order of spec/41_pulse_codec.md R107. -/
def State.pulseBitHigh (s : State) (l : Level) (d : Duration) : PulseOut :=
  match l with
  | .low => s.abortReeval .level l d
  | .high =>
    if s.inWin d s.params.zeroHigh then s.takeBit false
    else if s.inWin d s.params.oneHigh then s.takeBit true
    else if s.params.endGap < d then s.complete
    else s.abortReeval .window l d

/-- A record below the glitch floor (spec/41_pulse_codec.md R103). -/
def State.pulseGlitch (s : State) : PulseOut :=
  match s.dec.phase with
  | .idle => { state := s, ev := .ignored, cause := .none }
  | .headHigh => s.abort .glitch
  | .bitLow => s.abort .glitch
  | .bitHigh => s.abort .glitch

/-- What the decoder does with one pulse record (spec/41_pulse_codec.md R102). -/
def State.pulse (s : State) (l : Level) (d : Duration) : PulseOut :=
  if d < s.params.thresh then s.pulseGlitch
  else
    match s.dec.phase with
    | .idle => s.pulseIdle l d
    | .headHigh => s.pulseHeadHigh l d
    | .bitLow => s.pulseBitLow l d
    | .bitHigh => s.pulseBitHigh l d

/-- The response word of PULSE, `{16'b0, phase, 5'b0, cause, 2'b0, ev}` (spec/41_pulse_codec.md R102). -/
def pulseWord (ph : Phase) (c : Cause) (ev : Event) : Word := fld ph.code 13 ||| fld c.code 4 ||| fld ev.code 0

/-- PULSE L, D (spec/41_pulse_codec.md R102). -/
def execPulse (l : Level) (d : Duration) (s : State) : Result :=
  let r := s.pulse l d
  r.state.respond (pulseWord r.state.dec.phase r.cause r.ev)

/-- Bit `j` of a byte sequence, MSB first within each byte (spec/41_pulse_codec.md R114, spec/20_memory.md R62). -/
def wireBit (b : List Byte) (j : Nat) : Bool := (readByte b (j / 8)).getLsbD (7 - j % 8)

/-- `rec(k)` of the first `n` bytes of `b` (spec/41_pulse_codec.md R114); asked only for `k < 16 n + 4`. -/
def recAt (p : Params) (n : Nat) (b : List Byte) (k : Nat) : Level × Duration :=
  if k = 0 then (.low, p.hdrLow)
  else if k = 1 then (.high, p.hdrHigh)
  else if k < 2 + 16 * n then
    if k % 2 = 0 then (.low, p.bitLow)
    else (.high, if wireBit b ((k - 2) / 2) then p.oneHigh else p.zeroHigh)
  else if k = 2 + 16 * n then (.low, p.trailLow)
  else (.high, p.txGap)

/-- How many records a frame of `n` bytes has (spec/10_state.md R27). -/
def recCount (n : Nat) : Nat := 16 * n + 4

/-- The record list `rec(0) … rec(16n+3)` of a byte sequence (spec/41_pulse_codec.md R114). -/
def records (p : Params) (b : List Byte) : List (Level × Duration) :=
  (List.range (recCount b.length)).map (recAt p b.length b)

/-- The time an encoded frame occupies on the wire before the gap, in microseconds (spec/70_reset_and_hazards.md R270). -/
def wireTime (p : Params) (b : List Byte) : Nat := ((records p b).dropLast.map fun r => r.2.toNat).sum

/-- ENC p (spec/41_pulse_codec.md R115). -/
def execEnc (p : PktSel) (s : State) : Result :=
  if s.enc.active then s.raise .busy
  else
    let n := (s.pkt p).len
    let total := BitVec.ofNat 16 (recCount n.toNat)
    State.respond
      { s with
        enc :=
          { active := true
            cursor := 0#16
            total := total
            txn := n
            txbuf := copyBytes n.toNat (s.pkt p).data s.enc.txbuf } }
      (total.setWidth 32)

/-- The encoder with no frame to send (spec/41_pulse_codec.md R117, R118); `TXBUF` keeps its bytes. -/
def State.stopTx (s : State) : State :=
  { s with enc := { s.enc with active := false, cursor := 0#16, total := 0#16, txn := 0#8 } }

/-- The record TXPOP answers next, as a format P word (spec/41_pulse_codec.md R114, R116). -/
def State.nextRecord (s : State) : Word :=
  let r := recAt s.params s.enc.txn.toNat s.enc.txbuf s.enc.cursor.toNat
  formatP r.1 r.2

/-- TXPOP (spec/41_pulse_codec.md R117). -/
def execTxpop (s : State) : Result :=
  if s.enc.active then
    if s.enc.cursor + 1#16 = s.enc.total then s.stopTx.respond s.nextRecord
    else State.respond { s with enc := { s.enc with cursor := s.enc.cursor + 1#16 } } s.nextRecord
  else s.respond 0#32

/-- TXABORT (spec/41_pulse_codec.md R118). -/
def execTxabort (s : State) : Result := s.stopTx.respond 0#32

end Sys2Proof.Machine
end

