-- ==== Sys2Proof/Machine/Control.lean ====
section
/-! DEFINITION. No-operation and register access: NOP, RDREG, WRREG, CLRST (spec/44_control_regs.md). -/

namespace Sys2Proof.Machine

/-- NOP (spec/44_control_regs.md R210). -/
def execNop (s : State) : Result := s.respond 0#32

/-- RDREG r (spec/44_control_regs.md R211). -/
def execRdreg (r : BitVec 4) (s : State) : Result :=
  match s.readReg r with
  | some d => s.respond d
  | none => s.raise .range

/-- A WRREG that is illegal by its word alone (spec/30_encoding.md R89, spec/44_control_regs.md R212): a read-only register
number, or reserved bits of CFG. -/
def wrregIllegal (r : BitVec 4) (v : Half) : Bool :=
  decide (1 ≤ r.toNat ∧ r.toNat ≤ 7) || (r == 0#4 && cfgReservedSet v)

/-- WRREG r, v (spec/44_control_regs.md R212). -/
def execWrreg (r : BitVec 4) (v : Half) (s : State) : Result :=
  if wrregIllegal r v then s.raise .illegal
  else if 8 ≤ r.toNat then s.raise .range
  else if cfgOutOfRange v then s.raise .range
  else State.respond { s with cfg := v } 0#32

/-- CLRST v (spec/44_control_regs.md R213). -/
def execClrst (v : Half) (s : State) : Result :=
  if clrstMaskOk v then (s.clearSticky v).respond 0#32 else s.raise .illegal

end Sys2Proof.Machine
end

