-- ==== Sys2Proof/Machine/Framer.lean ====
section
/-! DEFINITION. The packet framer: checksum, length and validity of a packet, and the commands PNEW to PCOPY
(spec/42_packet_framer.md). -/

namespace Sys2Proof.Machine

/-- `SUM8(b)`: the sum of the bytes mod 256 (spec/42_packet_framer.md R140). -/
def sum8 (b : List Byte) : Byte := BitVec.ofNat 8 (b.map BitVec.toNat).sum

/-- `XOR8(b)`: the exclusive or of the bytes (spec/42_packet_framer.md R140). -/
def xor8 (b : List Byte) : Byte := b.foldl (· ^^^ ·) 0#8

/-- One step of `SUM8_EAC`: add, and bring the carry around (spec/42_packet_framer.md R140). -/
def eacStep (s : Nat) (b : Byte) : Nat := if 255 < s + b.toNat then s + b.toNat - 255 else s + b.toNat

/-- `SUM8_EAC(b)` (spec/42_packet_framer.md R140). -/
def sum8Eac (b : List Byte) : Byte := BitVec.ofNat 8 (b.foldl eacStep 0)

/-- The reduction `ALG` (spec/42_packet_framer.md R140, R141). -/
def reduce : CkAlg → List Byte → Byte
  | .sum8, b => sum8 b
  | .xor8, b => xor8 b
  | .sum8Eac, b => sum8Eac b

/-- `ck(P)`: the reduction of every byte before the last; 0 for `len <= 1` (spec/42_packet_framer.md R141). -/
def ck (a : CkAlg) (q : Packet) : Byte := reduce a (q.data.take (q.len.toNat - 1))

/-- The last byte of a packet, `data[len - 1]` (spec/20_memory.md R61). -/
def Packet.lastByte (q : Packet) : Byte := readByte q.data (q.len.toNat - 1)

/-- `ck_direct(P)` (spec/42_packet_framer.md R142). -/
def ckDirect (a : CkAlg) (q : Packet) : Bool := decide (1 ≤ q.len.toNat) && q.lastByte == ck a q

/-- `ck_inv(P)` (spec/42_packet_framer.md R142). -/
def ckInv (a : CkAlg) (q : Packet) : Bool := decide (1 ≤ q.len.toNat) && q.lastByte == ~~~(ck a q)

/-- `is_long(P)` (spec/42_packet_framer.md R143). -/
def isLong (p : Params) (q : Packet) : Bool := q.len.toNat == p.longLen

/-- `is_short(P)` (spec/42_packet_framer.md R143). -/
def isShort (p : Params) (q : Packet) : Bool := q.len.toNat == p.shortLen

/-- `size_valid(P)` (spec/42_packet_framer.md R143). -/
def sizeValid (p : Params) (q : Packet) : Bool := decide (q.len.toNat ≤ p.cap) && (isLong p q || isShort p q)

/-- `valid(P)` (spec/42_packet_framer.md R144). -/
def valid (p : Params) (a : CkAlg) (q : Packet) : Bool := sizeValid p q && (ckDirect a q || ckInv a q)

/-- The type discriminator as PINFO shows it: `data[0]`, or 0 when `len = 0` (spec/42_packet_framer.md R154). -/
def Packet.typeByte (q : Packet) : Byte := if 1 ≤ q.len.toNat then readByte q.data 0 else 0#8

/-- The payload window `data[1 .. len-2]` (spec/20_memory.md R63). -/
def Packet.payload (q : Packet) : List Byte := (q.data.take (q.len.toNat - 1)).drop 1

/-- `rev8(b)`: bit `i` moves to bit `7 - i` (spec/42_packet_framer.md R145). -/
def rev8 (b : Byte) : Byte := b.reverse

/-- The reduction CFG.CKALG selects as it stands (spec/42_packet_framer.md R141). -/
def State.alg (s : State) : CkAlg := cfgCkAlg s.cfg

/-- The response word of PINFO (spec/42_packet_framer.md R154). -/
def pinfoWord (p : Params) (a : CkAlg) (q : Packet) : Word :=
  fld q.typeByte 24 ||| fld q.src.code 16 ||| fld (flagBit q.ovf) 14 ||| fld (flagBit (valid p a q)) 13 |||
    fld (flagBit (ckInv a q)) 12 ||| fld (flagBit (ckDirect a q)) 11 ||| fld (flagBit (sizeValid p q)) 10 |||
    fld (flagBit (isShort p q)) 9 ||| fld (flagBit (isLong p q)) 8 ||| fld q.len 0

/-- PNEW p, src (spec/42_packet_framer.md R150). The bytes are not cleared. -/
def execPnew (p : PktSel) (src : Source) (s : State) : Result :=
  (s.setPkt p { s.pkt p with len := 0#8, ovf := false, time := s.nowMs, src := src }).respond 0#32

/-- A packet with one more byte, or with `ovf` set when it is full (spec/42_packet_framer.md R151). -/
def Packet.push (cap : Nat) (q : Packet) (val : Byte) : Packet :=
  if q.len.toNat < cap then { q with data := writeByte q.data q.len.toNat val, len := q.len + 1#8 }
  else { q with ovf := true }

/-- PUSH p, val (spec/42_packet_framer.md R151). -/
def execPush (p : PktSel) (val : Byte) (s : State) : Result :=
  (s.setPkt p ((s.pkt p).push s.params.cap val)).respond 0#32

/-- WRB p, idx, val (spec/42_packet_framer.md R152). `len` is unchanged. -/
def execWrb (p : PktSel) (idx val : Byte) (s : State) : Result :=
  if s.idxOut idx then s.raise .range
  else (s.setPkt p { s.pkt p with data := writeByte (s.pkt p).data idx.toNat val }).respond 0#32

/-- RDB p, idx (spec/42_packet_framer.md R153). -/
def execRdb (p : PktSel) (idx : Byte) (s : State) : Result :=
  if s.idxOut idx then s.raise .range else s.respondByte (s.pkt p) idx

/-- PINFO p (spec/42_packet_framer.md R154). -/
def execPinfo (p : PktSel) (s : State) : Result := s.respond (pinfoWord s.params s.alg (s.pkt p))

/-- PTIME p (spec/42_packet_framer.md R155). -/
def execPtime (p : PktSel) (s : State) : Result := s.respond (s.pkt p).time

/-- PAGE p (spec/42_packet_framer.md R156): `(now - P.time) mod 2^32`. -/
def execPage (p : PktSel) (s : State) : Result := s.respond (s.nowMs - (s.pkt p).time)

/-- Every byte below `len` mapped; nothing else of the packet changes (spec/42_packet_framer.md R157, R158). -/
def Packet.mapData (f : Byte → Byte) (q : Packet) : Packet := { q with data := mapBytes f q.len.toNat q.data }

/-- INV p (spec/42_packet_framer.md R157). -/
def execInv (p : PktSel) (s : State) : Result := (s.setPkt p ((s.pkt p).mapData fun b => ~~~b)).respond 0#32

/-- BREV p (spec/42_packet_framer.md R158). -/
def execBrev (p : PktSel) (s : State) : Result := (s.setPkt p ((s.pkt p).mapData rev8)).respond 0#32

/-- A packet sealed with its checksum, or with the checksum's complement (spec/42_packet_framer.md R159). -/
def Packet.seal (a : CkAlg) (inverted : Bool) (q : Packet) : Packet :=
  if 1 ≤ q.len.toNat then
    { q with data := writeByte q.data (q.len.toNat - 1) (if inverted then ~~~(ck a q) else ck a q) }
  else q

/-- CKGEN p [, INV] (spec/42_packet_framer.md R159). -/
def execCkgen (p : PktSel) (inverted : Bool) (s : State) : Result :=
  (s.setPkt p ((s.pkt p).seal s.alg inverted)).respond 0#32

/-- CKCALC p (spec/42_packet_framer.md R160). -/
def execCkcalc (p : PktSel) (s : State) : Result := s.respond ((ck s.alg (s.pkt p)).setWidth 32)

/-- PCOPY p (spec/42_packet_framer.md R161): `PKT[p] <- PKT[1 - p]`, every field. -/
def execPcopy (p : PktSel) (s : State) : Result := (s.setPkt p (s.pkt p.other)).respond 0#32

end Sys2Proof.Machine
end

