-- ==== Sys2Proof/Machine/Demux.lean ====
section
/-! DEFINITION. The serial packet demultiplexer: matching, staging, change detection, and the commands REG to SLOAD
(spec/43_demux.md). -/

namespace Sys2Proof.Machine

/-- The length class a slot selects holds of a packet (spec/43_demux.md R180). -/
def lenSelHolds (p : Params) (q : Packet) : LenSel → Bool
  | .any => true
  | .long => isLong p q
  | .short => isShort p q

/-- `matches(s, P)` (spec/43_demux.md R180). -/
def State.slotMatches (s : State) (q : Packet) (i : Nat) : Bool :=
  decide (i < s.reg.nreg.toNat) && decide (1 ≤ q.len.toNat) &&
    (readByte q.data 0 &&& (s.slot i).mask) == ((s.slot i).val &&& (s.slot i).mask) &&
    lenSelHolds s.params q (s.slot i).lensel

/-- `match_id(P)`: the least slot that matches (spec/43_demux.md R181). -/
def State.matchId (s : State) (q : Packet) : Option Nat := (List.range s.reg.nreg.toNat).find? (s.slotMatches q)

/-- REG val, mask, lensel (spec/43_demux.md R182). -/
def execReg (val mask : Byte) (lensel : BitVec 2) (s : State) : Result :=
  match lenSelOf lensel with
  | none => s.raise .range
  | some sel =>
    if s.reg.lock then s.raise .regLocked
    else if s.reg.nreg.toNat = s.params.nslot then s.raise .regFull
    else
      let i := s.reg.nreg.toNat
      let t := s.setSlot i { s.slot i with val := val, mask := mask, lensel := sel, hasCur := false, hasPrev := false }
      State.respond { t with reg := { t.reg with nreg := s.reg.nreg + 1#5 } } (s.reg.nreg.setWidth 32)

/-- The kinds of a dispatch result (spec/10_state.md R34, spec/43_demux.md R183). -/
inductive DispKind where
  | invalid
  | unknown
  | matched
  | never
  deriving DecidableEq, Repr

/-- The 2-bit code of a dispatch kind (spec/10_state.md R34). -/
def DispKind.code : DispKind → BitVec 2
  | .invalid => 0#2
  | .unknown => 1#2
  | .matched => 2#2
  | .never => 3#2

/-- The response word of DISP, `{15'b0, p, id, 6'b0, kind}` (spec/43_demux.md R183). -/
def dispWord (p : PktSel) (id : Byte) (k : DispKind) : Word := fld p.bit 16 ||| fld id 8 ||| fld k.code 0

/-- `stage(s, P)` (spec/43_demux.md R184). -/
def State.stage (s : State) (i : Nat) (q : Packet) : State := s.setSlot i { s.slot i with cur := q, hasCur := true }

/-- `REG_LOCK <- 1` (spec/43_demux.md R183). -/
def State.lockRegistry (s : State) : State := { s with reg := { s.reg with lock := true } }

/-- The dispatch ends: `LASTDISP <- r; respond(r)` (spec/43_demux.md R183). -/
def State.endDisp (s : State) (r : Word) : Result := State.respond { s with lastDisp := r } r

/-- DISP p (spec/43_demux.md R183). -/
def execDisp (p : PktSel) (s : State) : Result :=
  let q := s.pkt p
  let t := s.lockRegistry
  if valid s.params s.alg q then
    match t.matchId q with
    | none => t.endDisp (dispWord p 0xFF#8 .unknown)
    | some i => (t.stage i q).endDisp (dispWord p (BitVec.ofNat 8 i) .matched)
  else t.endDisp (dispWord p 0xFF#8 .invalid)

/-- A slot after `transfer()`: `prev` takes `cur` when there is one; `cur` stays (spec/43_demux.md R185). -/
def Slot.transfer (sl : Slot) : Slot := if sl.hasCur then { sl with prev := sl.cur, hasPrev := true } else sl

/-- XFER slot (spec/43_demux.md R185). -/
def execXfer (slot : BitVec 4) (s : State) : Result :=
  if s.slotOut slot || s.slotUnregistered slot then s.raise .range
  else (s.setSlot slot.toNat (s.slot slot.toNat).transfer).respond 0#32

/-- `changed(s)`: the default byte-level change detection (spec/43_demux.md R186). -/
def Slot.changed (sl : Slot) : Bool :=
  !sl.hasCur || !sl.hasPrev || sl.cur.len != sl.prev.len ||
    (List.range sl.cur.len.toNat).any fun i => readByte sl.cur.data i != readByte sl.prev.data i

/-- The response word of SINFO for a registered slot (spec/43_demux.md R187). -/
def sinfoWord (sl : Slot) : Word :=
  fld sl.mask 24 ||| fld sl.val 16 ||| fld (if sl.hasCur then sl.cur.len else 0#8) 8 ||| fld sl.lensel.code 4 |||
    fld (flagBit sl.changed) 3 ||| fld (flagBit sl.hasPrev) 2 ||| fld (flagBit sl.hasCur) 1 ||| fld 1#1 0

/-- SINFO slot (spec/43_demux.md R187). -/
def execSinfo (slot : BitVec 4) (s : State) : Result :=
  if s.slotOut slot then s.raise .range
  else if s.slotUnregistered slot then s.respond 0#32
  else s.respond (sinfoWord (s.slot slot.toNat))

/-- SRDB slot, which, idx (spec/43_demux.md R188). -/
def execSrdb (slot : BitVec 4) (which : Which) (idx : Byte) (s : State) : Result :=
  if s.slotOut slot || s.idxOut idx then s.raise .range
  else
    match (s.slot slot.toNat).packet? which with
    | none => s.raise .absent
    | some q => s.respondByte q idx

/-- SLOAD slot, p (spec/43_demux.md R189). -/
def execSload (slot : BitVec 4) (p : PktSel) (s : State) : Result :=
  if s.slotOut slot then s.raise .range
  else if (s.slot slot.toNat).hasCur then (s.setPkt p (s.slot slot.toNat).cur).respond 0#32
  else s.raise .absent

end Sys2Proof.Machine
end

