-- ==== Sys2Proof/Machine/Dispatch.lean ====
section
/-! DEFINITION. The meaning of every command: one arm per constructor of `Instr`. -/

namespace Sys2Proof.Machine

def exec (i : Instr) (s : State) : Host.Outcome State Fault Refusal :=
  match i with
  | .nop => Sys2Proof.Machine.execNop s
  | .pulse l d => Sys2Proof.Machine.execPulse l d s
  | .pnew p src => Sys2Proof.Machine.execPnew p src s
  | .push p val => Sys2Proof.Machine.execPush p val s
  | .wrb p idx val => Sys2Proof.Machine.execWrb p idx val s
  | .rdb p idx => Sys2Proof.Machine.execRdb p idx s
  | .pinfo p => Sys2Proof.Machine.execPinfo p s
  | .ptime p => Sys2Proof.Machine.execPtime p s
  | .page p => Sys2Proof.Machine.execPage p s
  | .inv p => Sys2Proof.Machine.execInv p s
  | .brev p => Sys2Proof.Machine.execBrev p s
  | .ckgen p inverted => Sys2Proof.Machine.execCkgen p inverted s
  | .ckcalc p => Sys2Proof.Machine.execCkcalc p s
  | .pcopy p => Sys2Proof.Machine.execPcopy p s
  | .reg val mask lensel => Sys2Proof.Machine.execReg val mask lensel s
  | .disp p => Sys2Proof.Machine.execDisp p s
  | .xfer slot => Sys2Proof.Machine.execXfer slot s
  | .sinfo slot => Sys2Proof.Machine.execSinfo slot s
  | .srdb slot which idx => Sys2Proof.Machine.execSrdb slot which idx s
  | .sload slot p => Sys2Proof.Machine.execSload slot p s
  | .enc p => Sys2Proof.Machine.execEnc p s
  | .txpop => Sys2Proof.Machine.execTxpop s
  | .txabort => Sys2Proof.Machine.execTxabort s
  | .rdreg r => Sys2Proof.Machine.execRdreg r s
  | .wrreg r v => Sys2Proof.Machine.execWrreg r v s
  | .clrst v => Sys2Proof.Machine.execClrst v s

end Sys2Proof.Machine
end

