-- ==== Sys2Proof/Machine/Step.lean ====
section
/-! DEFINITION. One step of the block: the host's next input, taken whole (spec/00_scope.md R10, spec/20_memory.md R69). -/

namespace Sys2Proof.Machine

/-- One step. A pending `rst` resets the block; a pending command is decoded and executed, an illegal word being answered
with ILLEGAL (spec/30_encoding.md R89); with nothing pending the block waits for its next command
(spec/70_reset_and_hazards.md R262). -/
def step (s : State) : Host.Outcome State Fault Refusal :=
  match s.inputs with
  | [] => .next s
  | .reset :: rest => .next (s.applyReset rest)
  | .command c :: rest =>
    match decode c.word with
    | .ok i => exec i (s.sample c rest)
    | .error _ => (s.sample c rest).raise .illegal

/-- `s` with the instruction whose bits are `w` as the host's next command (log entry 1). -/
def State.withFetchWord (s : State) (nbits w : Nat) : State := s.pend (wordOfTable nbits w)

end Sys2Proof.Machine
end

