-- ==== Sys2Proof/Machine/Assembly.lean ====
section
/-! DEFINITION. The assembler forms of spec/30_encoding.md R92, the pseudo-instructions of R93 as lists of commands, and the
run of a list of commands issued one after another with the same inputs. -/

namespace Sys2Proof.Machine

/-- The record list as PULSE commands (spec/41_pulse_codec.md R119). -/
def pulses (rs : List (Level × Duration)) : List Instr := rs.map fun r => .pulse r.1 r.2

/-- `HDR` (spec/30_encoding.md R93). -/
def asmHdr (p : Params) : List Instr := [.pulse .low p.hdrLow, .pulse .high p.hdrHigh]

/-- `BIT0` and `BIT1` (spec/30_encoding.md R93). -/
def asmBit (p : Params) (b : Bool) : List Instr :=
  [.pulse .low p.bitLow, .pulse .high (if b then p.oneHigh else p.zeroHigh)]

/-- `BYTE b`: eight bits, bit 7 of `b` first (spec/30_encoding.md R93). -/
def asmByte (p : Params) (b : Byte) : List Instr :=
  asmBit p (b.getLsbD 7) ++ asmBit p (b.getLsbD 6) ++ asmBit p (b.getLsbD 5) ++ asmBit p (b.getLsbD 4) ++
    asmBit p (b.getLsbD 3) ++ asmBit p (b.getLsbD 2) ++ asmBit p (b.getLsbD 1) ++ asmBit p (b.getLsbD 0)

/-- `TRAIL` (spec/30_encoding.md R93). -/
def asmTrail (p : Params) : List Instr := [.pulse .low p.trailLow]

/-- `GAP d` (spec/30_encoding.md R93). -/
def asmGap (d : Duration) : List Instr := [.pulse .high d]

/-- `WIREFRAME b0, …, bn-1` (spec/30_encoding.md R93). -/
def asmWireframe (p : Params) (b : List Byte) : List Instr :=
  asmHdr p ++ b.flatMap (asmByte p) ++ asmTrail p ++ asmGap p.txGap

/-- `LOADPKT p, src, b0, …, bn-1` (spec/30_encoding.md R93). -/
def asmLoadpkt (p : PktSel) (src : Source) (b : List Byte) : List Instr := .pnew p src :: b.map (.push p)

/-- `SEAL p` (spec/30_encoding.md R93). -/
def asmSeal (p : PktSel) : List Instr := [.ckgen p false]

/-- The commands of a list, one after another, with the inputs as last sampled; a stop ends the run. -/
def execAll : List Instr → State → Result
  | [], s => .next s
  | i :: is, s =>
    match exec i s with
    | .next t => execAll is t
    | .fault f => .fault f
    | .refused r => .refused r

/-- An operand in decimal (spec/30_encoding.md R92). -/
def asmNum {n : Nat} (x : BitVec n) : String := toString x.toNat

/-- The spelling of `p` (spec/30_encoding.md R92). -/
def asmPkt : PktSel → String
  | .rx => "RX"
  | .tx => "TX"

/-- The spelling of `src` (spec/30_encoding.md R92). -/
def asmSource : Source → String
  | .unknown => "UNK"
  | .heater => "HEATER"
  | .controller => "CTRL"
  | .localOrigin => "LOCAL"

/-- The spelling of `lensel`; the out-of-range 3 stands as a number (spec/30_encoding.md R92). -/
def asmLensel (c : BitVec 2) : String :=
  match lenSelOf c with
  | some .any => "ANY"
  | some .long => "LONG"
  | some .short => "SHORT"
  | none => asmNum c

/-- The spelling of `which` (spec/30_encoding.md R92). -/
def asmWhich : Which → String
  | .cur => "CUR"
  | .prev => "PREV"

/-- The spelling of a register number (spec/30_encoding.md R92). -/
def asmReg (r : BitVec 4) : String :=
  match r.toNat with
  | 0 => "CFG"
  | 1 => "STATUS"
  | 2 => "TERR_CNT"
  | 3 => "RXCNT"
  | 4 => "DECBITS"
  | 5 => "LASTDISP"
  | 6 => "TXCUR"
  | 7 => "NOW"
  | _ => asmNum r

/-- The assembler line of a command (spec/30_encoding.md R92): mnemonic, then comma-separated operands. -/
def asmLine : Instr → String
  | .nop => "NOP"
  | .pulse l d => "PULSE " ++ asmNum l.bit ++ ", " ++ asmNum d
  | .pnew p src => "PNEW " ++ asmPkt p ++ ", " ++ asmSource src
  | .push p val => "PUSH " ++ asmPkt p ++ ", " ++ asmNum val
  | .wrb p idx val => "WRB " ++ asmPkt p ++ ", " ++ asmNum idx ++ ", " ++ asmNum val
  | .rdb p idx => "RDB " ++ asmPkt p ++ ", " ++ asmNum idx
  | .pinfo p => "PINFO " ++ asmPkt p
  | .ptime p => "PTIME " ++ asmPkt p
  | .page p => "PAGE " ++ asmPkt p
  | .inv p => "INV " ++ asmPkt p
  | .brev p => "BREV " ++ asmPkt p
  | .ckgen p inverted => "CKGEN " ++ asmPkt p ++ (if inverted then ", INV" else "")
  | .ckcalc p => "CKCALC " ++ asmPkt p
  | .pcopy p => "PCOPY " ++ asmPkt p
  | .reg val mask lensel => "REG " ++ asmNum val ++ ", " ++ asmNum mask ++ ", " ++ asmLensel lensel
  | .disp p => "DISP " ++ asmPkt p
  | .xfer slot => "XFER " ++ asmNum slot
  | .sinfo slot => "SINFO " ++ asmNum slot
  | .srdb slot which idx => "SRDB " ++ asmNum slot ++ ", " ++ asmWhich which ++ ", " ++ asmNum idx
  | .sload slot p => "SLOAD " ++ asmNum slot ++ ", " ++ asmPkt p
  | .enc p => "ENC " ++ asmPkt p
  | .txpop => "TXPOP"
  | .txabort => "TXABORT"
  | .rdreg r => "RDREG " ++ asmReg r
  | .wrreg r v => "WRREG " ++ asmReg r ++ ", " ++ asmNum v
  | .clrst v => "CLRST " ++ asmNum v

end Sys2Proof.Machine
end

