-- ==== Sys2Proof/Safety.lean ====
section
/-! DEFINITION. The terms the statements use: the invariant of spec/10_state.md R40, what a command leaves unchanged, the
states a pulse record leads to as spec/41_pulse_codec.md writes them, and the illegal words of spec/30_encoding.md R89. -/

namespace Sys2Proof.Machine

/-- A packet whose byte array has CAP bytes and whose `len` is at most CAP (spec/10_state.md R22, R40). -/
abbrev Packet.Ok (p : Params) (q : Packet) : Prop := q.data.length = p.cap ∧ q.len.toNat ≤ p.cap

/-- The invariant of spec/10_state.md R40, with the fixed sizes of the arrays (R22, R25, R27, R28) and the legal values of
CFG (R29) and LAST_TERR (spec/60_exceptions.md R234). -/
structure State.Inv (s : State) : Prop where
  params_legal : s.params.Legal
  rxp_ok : s.rxp.Ok s.params
  txp_ok : s.txp.Ok s.params
  abuf_length : s.dec.abuf.length = s.params.cap
  txbuf_length : s.enc.txbuf.length = s.params.cap
  slots_length : s.reg.slots.length = s.params.nslot
  nreg_le : s.reg.nreg.toNat ≤ s.params.nslot
  slot_packets : ∀ i < s.params.nslot, (s.slot i).cur.Ok s.params ∧ (s.slot i).prev.Ok s.params
  unregistered_empty :
    ∀ i < s.params.nslot, s.reg.nreg.toNat ≤ i → (s.slot i).hasCur = false ∧ (s.slot i).hasPrev = false
  prev_needs_cur : ∀ i < s.params.nslot, (s.slot i).hasPrev = true → (s.slot i).hasCur = true
  no_bits_outside_frame :
    s.dec.phase = .idle ∨ s.dec.phase = .headHigh → s.dec.tbits = 0#16 ∧ s.dec.sr = 0#8
  tx_idle : s.enc.active = false → s.enc.cursor = 0#16 ∧ s.enc.total = 0#16
  tx_active :
    s.enc.active = true →
      s.enc.cursor.toNat < s.enc.total.toNat ∧ s.enc.total.toNat = 16 * s.enc.txn.toNat + 4
  txn_le : s.enc.txn.toNat ≤ s.params.cap
  lock_disp : s.reg.lock = false ↔ s.lastDisp.extractLsb' 0 2 = 3#2
  cfg_legal : cfgReservedSet s.cfg = false ∧ cfgOutOfRange s.cfg = false
  terr_cause : s.flags.terr = false ↔ s.flags.lastTerr = .none

/-- Nothing changes but the response (spec/60_exceptions.md R232, spec/20_memory.md R67). -/
def OnlyResponse (s t : State) (st : Status) (d : Word) : Prop := t = { s with rsp := { status := st, data := d } }

/-- Nothing changes but the packet register `p` and the response, which is OK with data `d`. -/
def OnlyPacket (p : PktSel) (s t : State) (d : Word) : Prop :=
  t = { s with rxp := t.rxp, txp := t.txp, rsp := { status := .ok, data := d } } ∧ t.pkt p.other = s.pkt p.other

/-- Nothing changes but the slot `i` and the response, which is OK with data `d`. -/
def OnlySlot (i : Nat) (s t : State) (d : Word) : Prop :=
  t = { s with reg := { s.reg with slots := t.reg.slots }, rsp := { status := .ok, data := d } } ∧
    t.reg.slots.length = s.reg.slots.length ∧ ∀ j, j ≠ i → t.slot j = s.slot j

/-- A packet keeps everything but its bytes, and the number of its bytes. -/
def SameMeta (q r : Packet) : Prop :=
  r.data.length = q.data.length ∧ r.len = q.len ∧ r.time = q.time ∧ r.src = q.src ∧ r.ovf = q.ovf

/-- The window of spec/41_pulse_codec.md R101 as a proposition. -/
def InWindow (s : State) (d n : Duration) : Prop :=
  n.toNat * (100 - (s.cfg.toNat % 128)) ≤ 100 * d.toNat ∧ 100 * d.toNat ≤ n.toNat * (100 + s.cfg.toNat % 128)

/-- The response word of PULSE for a phase after, a cause and an event code (spec/41_pulse_codec.md R102). -/
def pulseReply (ph : Phase) (c : Cause) (ev : Nat) : Response :=
  { status := .ok, data := BitVec.ofNat 32 (ph.code.toNat * 2 ^ 13 + c.code.toNat * 2 ^ 4 + ev) }

/-- The state after `abort(c)` ending in phase `ph`, with its reply (spec/41_pulse_codec.md R102, R110, R111). -/
def abortedState (s : State) (c : Cause) (ph : Phase) : State :=
  { s with
    dec := { phase := ph, tbits := 0#16, sr := 0#8, abuf := s.dec.abuf }
    flags := { rxReady := s.flags.rxReady, terr := true, rxOvf := s.flags.rxOvf, lastTerr := c }
    terrCnt := BitVec.ofNat 16 (min (s.terrCnt.toNat + 1) 65535)
    rsp := pulseReply ph c 3 }

/-- `t` is the state after `abort(c)` and `reeval(L, D)` (spec/41_pulse_codec.md R111). -/
def AbortsAndReexamines (s t : State) (c : Cause) (l : Level) (d : Duration) : Prop :=
  ((l = .low ∧ InWindow s d s.params.hdrLow) → t = abortedState s c .headHigh) ∧
    (¬(l = .low ∧ InWindow s d s.params.hdrLow) → t = abortedState s c .idle)

/-- `t` is the state after `take_bit(b)` (spec/41_pulse_codec.md R108). -/
def TakesBit (s t : State) (b : Bool) : Prop :=
  (s.dec.tbits = 0xFFFF#16 → t = abortedState s .tooLong .idle) ∧
    (s.dec.tbits ≠ 0xFFFF#16 →
      t = { s with dec := t.dec, rsp := pulseReply .bitLow .none 1 } ∧
        t.dec.phase = .bitLow ∧
        t.dec.tbits.toNat = s.dec.tbits.toNat + 1 ∧
        t.dec.sr.toNat = (s.dec.sr.toNat * 2 + b.toNat) % 256 ∧
        t.dec.abuf.length = s.dec.abuf.length ∧
        ∀ i < s.params.cap,
          readByte t.dec.abuf i = if s.dec.tbits.toNat + 1 = 8 * (i + 1) then t.dec.sr else readByte s.dec.abuf i)

/-- `t` is the state after `complete()` (spec/41_pulse_codec.md R109). -/
def EndsFrame (s t : State) : Prop :=
  (s.dec.tbits.toNat = 0 → t = abortedState s .empty .idle) ∧
    (s.dec.tbits.toNat % 8 ≠ 0 → t = abortedState s .partialByte .idle) ∧
    (s.dec.tbits.toNat ≠ 0 → s.dec.tbits.toNat % 8 = 0 →
      t =
          { s with
            rxp := t.rxp
            dec := { phase := .idle, tbits := 0#16, sr := 0#8, abuf := s.dec.abuf }
            flags := { s.flags with rxReady := true, rxOvf := t.flags.rxOvf }
            rxCnt := BitVec.ofNat 16 (min (s.rxCnt.toNat + 1) 65535)
            rsp := pulseReply .idle .none 2 } ∧
        (t.flags.rxOvf = true ↔ s.flags.rxOvf = true ∨ s.params.cap < s.dec.tbits.toNat / 8) ∧
        t.rxp.len.toNat = min (s.dec.tbits.toNat / 8) s.params.cap ∧
        t.rxp.time = s.nowMs ∧
        t.rxp.src = s.rxSrc ∧
        (t.rxp.ovf = true ↔ s.params.cap < s.dec.tbits.toNat / 8) ∧
        t.rxp.data.length = s.rxp.data.length ∧
        ∀ i < s.params.cap,
          readByte t.rxp.data i =
            if i < s.dec.tbits.toNat / 8 then readByte s.dec.abuf i else readByte s.rxp.data i)

/-- The bits [23:0] that must be 0 in a word of the group `op` and sub-opcode `sub`, as the masks of spec/opcode_table.json
give them; `none` for a reserved opcode or sub-opcode (spec/30_encoding.md R81, R84 to R88). -/
def mustBeZeroMask (op sub : Nat) : Option Nat :=
  match op, sub with
  | 0x2, 0x0 => some 0x7CFFFF
  | 0x2, 0x1 => some 0x7FFF00
  | 0x2, 0x2 => some 0x7F0000
  | 0x2, 0x3 => some 0x7F00FF
  | 0x2, 0x4 => some 0x7FFFFF
  | 0x2, 0x5 => some 0x7FFFFF
  | 0x2, 0x6 => some 0x7FFFFF
  | 0x2, 0x7 => some 0x7FFFFF
  | 0x2, 0x8 => some 0x7FFFFF
  | 0x2, 0x9 => some 0x7FFFFE
  | 0x2, 0xA => some 0x7FFFFF
  | 0x2, 0xB => some 0x7FFFFF
  | 0x3, 0x0 => some 0xFC0000
  | 0x3, 0x1 => some 0xF7FFFF
  | 0x3, 0x2 => some 0x0FFFFF
  | 0x3, 0x3 => some 0x0FFFFF
  | 0x3, 0x4 => some 0x0700FF
  | 0x3, 0x5 => some 0x07FFFF
  | 0x4, 0x0 => some 0x7FFFFF
  | 0x4, 0x1 => some 0xFFFFFF
  | 0x4, 0x2 => some 0xFFFFFF
  | 0x5, 0x0 => some 0xF0FFFF
  | 0x5, 0x1 => some 0xF00000
  | 0x5, 0x2 => some 0xFF3FF8
  | _, _ => none

/-- The word is a WRREG of a read-only register number, or of CFG with a reserved bit set (spec/30_encoding.md R89). -/
def illegalWrreg (w : Word) : Prop :=
  w.toNat / 2 ^ 24 = 0x51 ∧
    ((1 ≤ w.toNat / 2 ^ 16 % 16 ∧ w.toNat / 2 ^ 16 % 16 ≤ 7) ∨
      (w.toNat / 2 ^ 16 % 16 = 0 ∧ w &&& 0xCC80#32 ≠ 0#32))

/-- The illegal words of spec/30_encoding.md R89; the must-be-zero bits of CLRST's mask are those of spec/44_control_regs.md
R213. -/
def IllegalWord (w : Word) : Prop :=
  match w.toNat / 2 ^ 28 with
  | 0x0 => w ≠ 0#32
  | 0x1 => False
  | op =>
    match mustBeZeroMask op (w.toNat / 2 ^ 24 % 16) with
    | none => True
    | some m => w &&& BitVec.ofNat 32 m ≠ 0#32 ∨ illegalWrreg w

/-- The last byte of a packet equals its checksum, or the checksum's complement `0xFF - ck` (spec/42_packet_framer.md R142,
spec/00_scope.md R8). -/
def ChecksumHolds (s : State) (q : Packet) (inverted : Bool) : Prop :=
  1 ≤ q.len.toNat ∧
    (readByte q.data (q.len.toNat - 1)).toNat =
      if inverted then 255 - (reduce s.alg (q.data.take (q.len.toNat - 1))).toNat
      else (reduce s.alg (q.data.take (q.len.toNat - 1))).toNat

/-- `size_valid(P)` (spec/42_packet_framer.md R143). -/
def SizeHolds (s : State) (q : Packet) : Prop :=
  q.len.toNat ≤ s.params.cap ∧ (q.len.toNat = s.params.longLen ∨ q.len.toNat = s.params.shortLen)

/-- `valid(P)` (spec/42_packet_framer.md R144). -/
def PacketValid (s : State) (q : Packet) : Prop :=
  SizeHolds s q ∧ (ChecksumHolds s q false ∨ ChecksumHolds s q true)

/-- The discriminator bytes a slot's matcher claims (spec/43_demux.md R180, R192). -/
def Slot.Claims (sl : Slot) (b : Byte) : Prop := b &&& sl.mask = sl.val &&& sl.mask

/-- `matches(s, P)` (spec/43_demux.md R180). -/
def SlotMatches (s : State) (q : Packet) (i : Nat) : Prop :=
  i < s.reg.nreg.toNat ∧ 1 ≤ q.len.toNat ∧ (s.slot i).Claims (readByte q.data 0) ∧
    ((s.slot i).lensel = .any ∨ ((s.slot i).lensel = .long ∧ q.len.toNat = s.params.longLen) ∨
      ((s.slot i).lensel = .short ∧ q.len.toNat = s.params.shortLen))

/-- `match_id(P) = i`: the least slot that matches (spec/43_demux.md R181). -/
def FirstMatch (s : State) (q : Packet) (i : Nat) : Prop := SlotMatches s q i ∧ ∀ j < i, ¬SlotMatches s q j

/-- Two packets have the same `len` and the same bytes below it (spec/43_demux.md R186). -/
def SameBytes (q r : Packet) : Prop :=
  q.len = r.len ∧ ∀ i < q.len.toNat, readByte q.data i = readByte r.data i

/-- `changed(s)` (spec/43_demux.md R186). -/
def SlotChanged (sl : Slot) : Prop := sl.hasCur = false ∨ sl.hasPrev = false ∨ ¬SameBytes sl.cur sl.prev

/-- The answers of `n` TXPOP commands one after another, and the state they end in. -/
def pops : Nat → State → Option (List Word × State)
  | 0, s => some ([], s)
  | n + 1, s =>
    match exec .txpop s with
    | .next t => (pops n t).map fun r => (t.rsp.data :: r.1, r.2)
    | .fault _ => none
    | .refused _ => none

/-- Two packets agree in everything but the bytes at and above `len` (spec/10_state.md R41). -/
def PacketAgrees (q r : Packet) : Prop :=
  q.data.length = r.data.length ∧ q.len = r.len ∧ q.time = r.time ∧ q.src = r.src ∧ q.ovf = r.ovf ∧
    ∀ i < q.len.toNat, readByte q.data i = readByte r.data i

/-- Two states agree in everything but bytes that are not defined: packet bytes at and above `len`, decoder bytes not yet
received, encoder bytes at and above `txn` (spec/10_state.md R25, R27, R41). -/
def AgreeOnDefined (s t : State) : Prop :=
  t =
      { s with
        rxp := t.rxp
        txp := t.txp
        dec := { s.dec with abuf := t.dec.abuf }
        enc := { s.enc with txbuf := t.enc.txbuf }
        reg := { s.reg with slots := t.reg.slots } } ∧
    PacketAgrees s.rxp t.rxp ∧ PacketAgrees s.txp t.txp ∧
    (∀ i < s.dec.tbits.toNat / 8, readByte s.dec.abuf i = readByte t.dec.abuf i) ∧
    (∀ i < s.enc.txn.toNat, readByte s.enc.txbuf i = readByte t.enc.txbuf i) ∧
    ∀ i, t.slot i = { s.slot i with cur := (t.slot i).cur, prev := (t.slot i).prev } ∧
      PacketAgrees (s.slot i).cur (t.slot i).cur ∧ PacketAgrees (s.slot i).prev (t.slot i).prev

end Sys2Proof.Machine
end

