-- ==== Sys2Proof/Certificates/Slice0/Obligations.lean ====
section
/-! DEFINITION. The statements for the provers. Each docstring names the rule of spec/ it formalises. -/

open Sys2Proof Sys2Proof.Machine

/-! ### Encoding -/

/-- Decode and encode agree, every operand at every value its field admits (spec/30_encoding.md R82 to R88). -/
def Obligations.DecodeOfEncode : Prop :=
  ∀ i : Instr, i.wellFormed = true → decode (encode i) = .ok i

/-- A word the decoder accepts is the word of the command it reads: no bit of a legal word is dropped
(spec/30_encoding.md R82 to R89). -/
def Obligations.EncodeOfDecode : Prop :=
  ∀ (w : Word) (i : Instr), decode w = .ok i → encode i = w ∧ i.wellFormed = true

/-- A few words as spec/95_test_vectors.md and spec/30_encoding.md R93 write them. -/
def Obligations.DecodeReadsSpecWords : Prop :=
  decode 0x00000000#32 = .ok .nop ∧
    decode 0x18000BB8#32 = .ok (.pulse .high 3000#27) ∧
    decode 0x20830000#32 = .ok (.pnew .tx .localOrigin) ∧
    decode 0x34080100#32 = .ok (.srdb 0#4 .prev 1#8) ∧
    decode 0x40800000#32 = .ok (.enc .tx) ∧
    decode 0x51003119#32 = .ok (.wrreg 0#4 0x3119#16) ∧
    decode 0x60000000#32 = .error .reservedOpcode

/-- spec/30_encoding.md R89, its CLRST bits as spec/44_control_regs.md R213 gives them: a step answers ILLEGAL exactly to the
illegal words, and then changes nothing but the response. That the illegal word's step takes one input of a list is the model's
choice (log entry 1), and that it samples `now_ms` and `rx_src` too is the model's choice (log entry 6). -/
def Obligations.IllegalWordsAnsweredIllegal : Prop :=
  ∀ (s : State) (c : Command) (rest : List HostInput), s.inputs = .command c :: rest →
    ∃ t, step s = .next t ∧ (t.rsp.status = .illegal ↔ IllegalWord c.word) ∧
      (IllegalWord c.word →
        t = { s with
          nowMs := c.nowMs, rxSrc := c.rxSrc, inputs := rest, rsp := { status := .illegal, data := 0#32 } })

/-! ### Steps, reset, invariants -/

/-- A step runs the command its pending word decodes to, with `now_ms` and `rx_src` sampled at its start
(spec/00_scope.md R9, R10). That the words stand in the state as a list of inputs, of which a step takes one, is the model's
choice (log entry 1), and so is that the sampled values stand in the state (log entry 6). -/
def Obligations.StepRunsDecodedCommand : Prop :=
  ∀ (s : State) (c : Command) (rest : List HostInput) (i : Instr),
    s.inputs = .command c :: rest → decode c.word = .ok i →
      step s = exec i { s with nowMs := c.nowMs, rxSrc := c.rxSrc, inputs := rest }

/-- With nothing pending a step changes nothing: the block has no timer, queue or operation of its own and waits for its next
command (spec/10_state.md R20, spec/70_reset_and_hazards.md R262; the form of the wait is the model's, log entry 1). -/
def Obligations.StepWaitsWithoutInput : Prop :=
  ∀ s : State, s.inputs = [] → step s = .next s

/-- spec/70_reset_and_hazards.md R260: `rst` puts every state element into its reset value. What `rst` keeps (the parameters,
the inputs still to come, the count of free bytes) is no element of the spec (log entry 7). -/
def Obligations.ResetInputRestoresResetState : Prop :=
  ∀ (s : State) (rest : List HostInput), s.inputs = .reset :: rest →
    step s = .next { State.resetWith s.params with inputs := rest, freeIdx := s.freeIdx }

/-- spec/70_reset_and_hazards.md R261, every row that gives a value, for every choice of the parameters; CFG is 0x1E in the
reference configuration. -/
def Obligations.ResetValues : Prop :=
  (∀ p : Params,
    let s := State.resetWith p
    (∀ r : PktSel, (s.pkt r).len = 0#8 ∧ (s.pkt r).time = 0#32 ∧ (s.pkt r).src = .unknown ∧ (s.pkt r).ovf = false) ∧
      (s.dec.phase = .idle ∧ s.dec.tbits = 0#16 ∧ s.dec.sr = 0#8) ∧
      (s.enc.active = false ∧ s.enc.cursor = 0#16 ∧ s.enc.total = 0#16 ∧ s.enc.txn = 0#8) ∧
      (s.reg.nreg = 0#5 ∧ s.reg.lock = false) ∧
      (∀ i < p.nslot,
        (s.slot i).val = 0#8 ∧ (s.slot i).mask = 0#8 ∧ (s.slot i).lensel = .any ∧ (s.slot i).hasCur = false ∧
          (s.slot i).hasPrev = false ∧
          ∀ w : Which,
            let q := match w with | .cur => (s.slot i).cur | .prev => (s.slot i).prev
            q.len = 0#8 ∧ q.time = 0#32 ∧ q.src = .unknown ∧ q.ovf = false) ∧
      s.statusWord = 0#32 ∧ s.terrCnt = 0#16 ∧ s.rxCnt = 0#16 ∧ s.lastDisp = 0x0000FF03#32 ∧ s.irq = false) ∧
    State.reset.cfg = 0x001E#16

/-- The invariant of spec/10_state.md R40, which the spec marks as its own inference ("derived: from the command rules"),
holds right after reset, for every legal choice of the parameters. -/
def Obligations.ResetSatisfiesInvariant : Prop :=
  ∀ p : Params, p.Legal → (State.resetWith p).Inv

/-- Every step from every state keeps the invariant of spec/10_state.md R40, which the spec marks as its own inference
("derived: from the command rules"). -/
def Obligations.StepKeepsInvariant : Prop :=
  ∀ s t : State, s.Inv → step s = .next t → t.Inv

/-- Every command and every step completes: no trap, no stop (spec/60_exceptions.md R237, spec/70_reset_and_hazards.md
R271). That a step with nothing pending completes too is the model's form of the wait (log entry 1). -/
def Obligations.EveryStepCompletes : Prop :=
  (∀ (i : Instr) (s : State), ∃ t, exec i s = .next t) ∧ ∀ s : State, ∃ t, step s = .next t

/-- spec/60_exceptions.md R232, of a decoded command and of any command word. That the step of a refused word takes one input
of a list is the model's choice (log entry 1), and that it samples `now_ms` and `rx_src` too is the model's choice (log entry
6). -/
def Obligations.RefusedCommandChangesNothing : Prop :=
  (∀ (i : Instr) (s t : State), exec i s = .next t → t.rsp.status ≠ .ok → OnlyResponse s t t.rsp.status 0#32) ∧
    ∀ (s t : State) (c : Command) (rest : List HostInput), s.inputs = .command c :: rest → step s = .next t →
      t.rsp.status ≠ .ok →
        OnlyResponse { s with nowMs := c.nowMs, rxSrc := c.rxSrc, inputs := rest } t t.rsp.status 0#32

/-- The implementation parameters are constants of the hardware (spec/00_scope.md R6), and no drawn `unspecified()` byte is drawn
again (R9: independently at each read): the count of drawn bytes never falls, it rises only by 1 and only with an answer that is
the free byte of the old count, and every RDB or SRDB at or above `len` raises it. `params` and `freeIdx` are the model's own fields
and their treatment is the model's choice (log entries 2 and 3, and 7 for `rst`, which keeps both). -/
def Obligations.ParametersNeverChange : Prop :=
  (∀ s t : State, step s = .next t →
    t.params = s.params ∧ s.freeIdx ≤ t.freeIdx ∧
      (t.freeIdx = s.freeIdx ∨
        t.freeIdx = s.freeIdx + 1 ∧ t.rsp = { status := .ok, data := (Config.freeByte s.freeIdx).setWidth 32 })) ∧
    (∀ (s t : State) (c : Command) (rest : List HostInput) (p : PktSel) (idx : Byte),
      s.inputs = .command c :: rest → decode c.word = .ok (.rdb p idx) → (s.pkt p).len.toNat ≤ idx.toNat →
        idx.toNat < s.params.cap → step s = .next t → t.freeIdx = s.freeIdx + 1) ∧
    ∀ (s t : State) (c : Command) (rest : List HostInput) (slot : BitVec 4) (which : Which) (idx : Byte) (q : Packet),
      s.inputs = .command c :: rest → decode c.word = .ok (.srdb slot which idx) → slot.toNat < s.params.nslot →
        (which = .cur ∧ (s.slot slot.toNat).hasCur = true ∧ q = (s.slot slot.toNat).cur ∨
          which = .prev ∧ (s.slot slot.toNat).hasPrev = true ∧ q = (s.slot slot.toNat).prev) →
        q.len.toNat ≤ idx.toNat → idx.toNat < s.params.cap → step s = .next t → t.freeIdx = s.freeIdx + 1

/-- spec/60_exceptions.md R236: a pending source stays pending until CLRST or reset. The overflow flag and the cause field
behave alike (spec/10_state.md R30). -/
def Obligations.OnlyClrstClearsStickyFlags : Prop :=
  ∀ (i : Instr) (s t : State), exec i s = .next t → (∀ v, i ≠ .clrst v) →
    (s.flags.rxReady = true → t.flags.rxReady = true) ∧ (s.flags.terr = true → t.flags.terr = true) ∧
      (s.flags.rxOvf = true → t.flags.rxOvf = true) ∧ (s.flags.lastTerr ≠ .none → t.flags.lastTerr ≠ .none)

/-- The decoder moves only by PULSE (spec/41_pulse_codec.md R112), and "the decoder and the encoder share no state"
(spec/70_reset_and_hazards.md R269, marked there as the spec's own inference): no other command touches the decoder, and
PULSE touches neither the encoder, nor TXP, nor the registry. -/
def Obligations.OnlyPulseMovesDecoder : Prop :=
  ∀ (i : Instr) (s t : State), exec i s = .next t →
    ((∀ l d, i ≠ .pulse l d) → t.dec = s.dec) ∧
      (∀ l d, i = .pulse l d → t.enc = s.enc ∧ t.txp = s.txp ∧ t.reg = s.reg ∧ t.lastDisp = s.lastDisp)

/-- spec/70_reset_and_hazards.md R268: the first DISP, whatever its result, ends registration until reset. -/
def Obligations.FirstDispatchEndsRegistration : Prop :=
  (∀ (p : PktSel) (s : State), ∃ t, exec (.disp p) s = .next t ∧ t.reg.lock = true) ∧
    ∀ (i : Instr) (s t : State), s.reg.lock = true → exec i s = .next t →
      t.reg.lock = true ∧ t.reg.nreg = s.reg.nreg ∧ (∀ v m l, i = .reg v m l → t.rsp.status ≠ .ok)

/-- spec/43_demux.md R190: a Staged slot never returns to Empty, and a registered slot stays registered
(spec/10_state.md R28, "entries never removed once registered"), except by reset. -/
def Obligations.StagedSlotStaysStaged : Prop :=
  ∀ (i : Instr) (s t : State), s.Inv → exec i s = .next t →
    s.reg.nreg.toNat ≤ t.reg.nreg.toNat ∧
      ∀ k < s.reg.nreg.toNat,
        (t.slot k).val = (s.slot k).val ∧ (t.slot k).mask = (s.slot k).mask ∧ (t.slot k).lensel = (s.slot k).lensel ∧
          ((s.slot k).hasCur = true → (t.slot k).hasCur = true) ∧
          ((s.slot k).hasPrev = true → (t.slot k).hasPrev = true)

/-- The commands of spec/20_memory.md R67 without a side effect: nothing changes but the response (and, after a read of an
undefined byte, which free byte is drawn next: the model's own counter, log entry 3). -/
def Obligations.ReadCommandsChangeNothing : Prop :=
  ∀ (i : Instr) (s : State),
    ((∃ r, i = .rdreg r) ∨ (∃ p x, i = .rdb p x) ∨ (∃ p, i = .pinfo p) ∨ (∃ p, i = .ptime p) ∨ (∃ p, i = .page p) ∨
        (∃ p, i = .ckcalc p) ∨ (∃ k, i = .sinfo k) ∨ ∃ k w x, i = .srdb k w x) →
      ∃ t, exec i s = .next t ∧ t = { s with rsp := t.rsp, freeIdx := t.freeIdx }

/-- The STATUS register field by field, with its live fields and the interrupt line (spec/10_state.md R30, R39). -/
def Obligations.StatusRegisterFields : Prop :=
  ∀ s : State, ∃ t, exec (.rdreg 1#4) s = .next t ∧ OnlyResponse s t .ok t.rsp.data ∧
    (t.rsp.data.getLsbD 0 = s.flags.rxReady ∧ t.rsp.data.getLsbD 1 = s.flags.terr ∧
      t.rsp.data.getLsbD 2 = s.flags.rxOvf ∧ t.rsp.data.getLsbD 3 = s.enc.active ∧ t.rsp.data.getLsbD 4 = s.reg.lock) ∧
    (t.rsp.data.getLsbD 5 = true ↔
      (s.flags.rxReady = true ∧ s.cfg.getLsbD 12 = true) ∨ (s.flags.terr = true ∧ s.cfg.getLsbD 13 = true)) ∧
    (t.rsp.data.getLsbD 5 = true ↔ s.irq = true) ∧
    t.rsp.data.extractLsb' 6 2 = 0#2 ∧ t.rsp.data.extractLsb' 8 5 = s.reg.nreg ∧
    t.rsp.data.extractLsb' 13 3 = s.dec.phase.code ∧ t.rsp.data.extractLsb' 16 4 = s.flags.lastTerr.code ∧
    t.rsp.data.extractLsb' 20 12 = 0#12

/-- spec/10_state.md R41: bytes that are not defined affect no response and no defined byte. An RDB or SRDB at or above `len`
answers alike from both states because the byte it draws is the model's choice of a free value indexed by a counter that both
states hold alike (log entry 3); the spec draws that byte freely. -/
def Obligations.UndefinedBytesUnobservable : Prop :=
  ∀ (i : Instr) (s s' t t' : State), s.Inv → s'.Inv → AgreeOnDefined s s' → exec i s = .next t → exec i s' = .next t' →
    t.rsp = t'.rsp ∧ AgreeOnDefined t t'

/-! ### The pulse decoder -/

/-- Every PULSE answers OK with the layout of spec/41_pulse_codec.md R102, and "either completes a frame or aborts one, never
both" (spec/60_exceptions.md R235, marked there as the spec's own inference). -/
def Obligations.PulseAnswersOk : Prop :=
  ∀ (l : Level) (d : Duration) (s : State), ∃ t, exec (.pulse l d) s = .next t ∧ t.rsp.status = .ok ∧
    (t.rsp.data.extractLsb' 13 3 = t.dec.phase.code ∧ t.rsp.data.extractLsb' 16 16 = 0#16 ∧
      t.rsp.data.extractLsb' 8 5 = 0#5 ∧ t.rsp.data.extractLsb' 2 2 = 0#2) ∧
    (t.rsp.data.extractLsb' 0 2 = 3#2 →
      t.rxp = s.rxp ∧ t.rxCnt = s.rxCnt ∧ t.flags.terr = true ∧
        t.rsp.data.extractLsb' 4 4 = t.flags.lastTerr.code ∧ t.flags.lastTerr ≠ .none) ∧
    (t.rsp.data.extractLsb' 0 2 = 2#2 → t.flags.rxReady = true ∧ t.dec.phase = .idle) ∧
    (t.rsp.data.extractLsb' 0 2 ≠ 3#2 →
      t.rsp.data.extractLsb' 4 4 = 0#4 ∧ t.terrCnt = s.terrCnt ∧ t.flags.terr = s.flags.terr ∧
        t.flags.lastTerr = s.flags.lastTerr)

/-- spec/41_pulse_codec.md R103. -/
def Obligations.GlitchPulse : Prop :=
  ∀ (l : Level) (d : Duration) (s : State), d.toNat < s.params.thresh.toNat →
    (s.dec.phase = .idle → exec (.pulse l d) s = .next { s with rsp := pulseReply .idle .none 0 }) ∧
      (s.dec.phase ≠ .idle → exec (.pulse l d) s = .next (abortedState s .glitch .idle))

/-- spec/41_pulse_codec.md R104. -/
def Obligations.IdlePulse : Prop :=
  ∀ (l : Level) (d : Duration) (s : State), s.dec.phase = .idle → s.params.thresh.toNat ≤ d.toNat →
    (l = .low ∧ InWindow s d s.params.hdrLow →
      exec (.pulse l d) s =
        .next { s with dec := { s.dec with phase := .headHigh }, rsp := pulseReply .headHigh .none 1 }) ∧
      (¬(l = .low ∧ InWindow s d s.params.hdrLow) →
        exec (.pulse l d) s = .next { s with rsp := pulseReply .idle .none 0 })

/-- spec/41_pulse_codec.md R105, with the re-examination of R111. -/
def Obligations.HeadHighPulse : Prop :=
  ∀ (l : Level) (d : Duration) (s : State), s.dec.phase = .headHigh → s.params.thresh.toNat ≤ d.toNat →
    ∃ t, exec (.pulse l d) s = .next t ∧
      (l = .high → InWindow s d s.params.hdrHigh →
        t =
          { s with
            dec := { phase := .bitLow, tbits := 0#16, sr := 0#8, abuf := s.dec.abuf }
            rsp := pulseReply .bitLow .none 1 }) ∧
      (l = .low → AbortsAndReexamines s t .level l d) ∧
      (l = .high → ¬InWindow s d s.params.hdrHigh → AbortsAndReexamines s t .window l d)

/-- spec/41_pulse_codec.md R106, with the completion of R109 and the re-examination of R111. -/
def Obligations.BitLowPulse : Prop :=
  ∀ (l : Level) (d : Duration) (s : State), s.Inv → s.dec.phase = .bitLow → s.params.thresh.toNat ≤ d.toNat →
    ∃ t, exec (.pulse l d) s = .next t ∧
      (l = .low → InWindow s d s.params.bitLow →
        t = { s with dec := { s.dec with phase := .bitHigh }, rsp := pulseReply .bitHigh .none 1 }) ∧
      (l = .low → ¬InWindow s d s.params.bitLow → AbortsAndReexamines s t .window l d) ∧
      (l = .high → s.params.endGap.toNat < d.toNat → EndsFrame s t) ∧
      (l = .high → d.toNat ≤ s.params.endGap.toNat → AbortsAndReexamines s t .level l d)

/-- spec/41_pulse_codec.md R107, its priority order, with the bits of R108 and the completion of R109. -/
def Obligations.BitHighPulse : Prop :=
  ∀ (l : Level) (d : Duration) (s : State), s.Inv → s.dec.phase = .bitHigh → s.params.thresh.toNat ≤ d.toNat →
    ∃ t, exec (.pulse l d) s = .next t ∧
      (l = .low → AbortsAndReexamines s t .level l d) ∧
      (l = .high → InWindow s d s.params.zeroHigh → TakesBit s t false) ∧
      (l = .high → ¬InWindow s d s.params.zeroHigh → InWindow s d s.params.oneHigh → TakesBit s t true) ∧
      (l = .high → ¬InWindow s d s.params.zeroHigh → ¬InWindow s d s.params.oneHigh →
        (s.params.endGap.toNat < d.toNat → EndsFrame s t) ∧
          (d.toNat ≤ s.params.endGap.toNat → AbortsAndReexamines s t .window l d))

/-- spec/41_pulse_codec.md R119 (marked there as the spec's own inference from R101 to R111 and R114): for every legal
parameter set and every tolerance, the records of 1 to CAP bytes, issued as PULSE commands from phase IDLE, deliver those
bytes into RXP, with no abort. -/
def Obligations.CodecRoundTrip : Prop :=
  ∀ (s : State) (b : List Byte), s.Inv → s.dec.phase = .idle → 1 ≤ b.length → b.length ≤ s.params.cap →
    ∃ t, execAll (pulses (records s.params b)) s = .next t ∧
      t.dec.phase = .idle ∧ t.rxp.len.toNat = b.length ∧ t.rxp.data.take b.length = b ∧ t.rxp.ovf = false ∧
      t.flags.rxReady = true ∧ t.rsp = pulseReply .idle .none 2 ∧
      t.terrCnt = s.terrCnt ∧ t.flags.terr = s.flags.terr ∧ t.flags.lastTerr = s.flags.lastTerr

/-! ### The pulse encoder -/

/-- spec/41_pulse_codec.md R114: the record list, record by record. -/
def Obligations.RecordList : Prop :=
  ∀ (p : Params) (b : List Byte) (k : Nat),
    (records p b).length = 16 * b.length + 4 ∧
      (k = 0 → (records p b)[k]? = some (.low, p.hdrLow)) ∧
      (k = 1 → (records p b)[k]? = some (.high, p.hdrHigh)) ∧
      (∀ (i : Nat) (x : Byte) (m : Nat), b[i]? = some x → m < 8 →
        (k = 2 + 16 * i + 2 * m → (records p b)[k]? = some (.low, p.bitLow)) ∧
          (k = 2 + 16 * i + 2 * m + 1 →
            (records p b)[k]? = some (.high, if x.toNat / 2 ^ (7 - m) % 2 = 1 then p.oneHigh else p.zeroHigh))) ∧
      (k = 2 + 16 * b.length → (records p b)[k]? = some (.low, p.trailLow)) ∧
      (k = 3 + 16 * b.length → (records p b)[k]? = some (.high, p.txGap))

/-- spec/30_encoding.md R93: the pseudo-instruction WIREFRAME issues the same records ENC and TXPOP produce. -/
def Obligations.WireframeIsRecordList : Prop :=
  ∀ (p : Params) (b : List Byte), asmWireframe p b = pulses (records p b)

/-- spec/70_reset_and_hazards.md R270: the wire time of an encoded frame of `n` bytes with the default constants. -/
def Obligations.WireTimeBounds : Prop :=
  ∀ b : List Byte,
    14000 + 16000 * b.length + 1000 ≤ wireTime Params.reference b ∧
      wireTime Params.reference b ≤ 14000 + 32000 * b.length + 1000

/-- spec/41_pulse_codec.md R115. -/
def Obligations.EncSnapshotsPacket : Prop :=
  ∀ (p : PktSel) (s : State), s.Inv →
    encode (.enc p) = 0x40000000#32 ||| p.bit.setWidth 32 <<< 23 ∧
      (s.enc.active = true → ∃ t, exec (.enc p) s = .next t ∧ OnlyResponse s t .busy 0#32) ∧
      (s.enc.active = false →
        ∃ t, exec (.enc p) s = .next t ∧
          t = { s with enc := t.enc, rsp := { status := .ok, data := t.enc.total.setWidth 32 } } ∧
          t.enc.active = true ∧ t.enc.cursor = 0#16 ∧ t.enc.txn = (s.pkt p).len ∧
          t.enc.total.toNat = 16 * (s.pkt p).len.toNat + 4 ∧ t.enc.txbuf.length = s.enc.txbuf.length ∧
          ∀ i < (s.pkt p).len.toNat, readByte t.enc.txbuf i = readByte (s.pkt p).data i)

/-- spec/41_pulse_codec.md R117, R116. -/
def Obligations.TxpopAnswersNextRecord : Prop :=
  ∀ s : State, s.Inv →
    encode .txpop = 0x41000000#32 ∧
      (s.enc.active = false → ∃ t, exec .txpop s = .next t ∧ OnlyResponse s t .ok 0#32) ∧
      (s.enc.active = true →
        ∃ t l d, exec .txpop s = .next t ∧
          (records s.params (s.enc.txbuf.take s.enc.txn.toNat))[s.enc.cursor.toNat]? = some (l, d) ∧
          t =
            { s with
              enc := t.enc
              rsp :=
                { status := .ok
                  data := 0x10000000#32 ||| l.bit.setWidth 32 <<< 27 ||| d.setWidth 32 } } ∧
          t.enc.txbuf = s.enc.txbuf ∧
          (s.enc.cursor.toNat + 1 < s.enc.total.toNat →
            t.enc = { s.enc with cursor := t.enc.cursor } ∧ t.enc.cursor.toNat = s.enc.cursor.toNat + 1) ∧
          (s.enc.cursor.toNat + 1 = s.enc.total.toNat →
            t.enc = { s.enc with active := false, cursor := 0#16, total := 0#16, txn := 0#8 }))

/-- spec/41_pulse_codec.md R118; afterwards TXPOP answers 0. -/
def Obligations.TxabortIdlesEncoder : Prop :=
  ∀ s : State,
    encode .txabort = 0x42000000#32 ∧
      exec .txabort s =
        .next
          { s with
            enc := { active := false, cursor := 0#16, total := 0#16, txn := 0#8, txbuf := s.enc.txbuf }
            rsp := { status := .ok, data := 0#32 } } ∧
      ∃ u, execAll [.txabort, .txpop] s = .next u ∧ u.rsp = { status := .ok, data := 0#32 }

/-- spec/41_pulse_codec.md R114, R115, R117: ENC, then one TXPOP per record, answers the whole record list in order as format P
words and leaves the encoder idle; the packet's later fate does not matter, since nothing else of the state changes. -/
def Obligations.PopsAnswerWholeRecordList : Prop :=
  ∀ (p : PktSel) (s : State), s.Inv → s.enc.active = false →
    ∃ t u, exec (.enc p) s = .next t ∧
      pops (16 * (s.pkt p).len.toNat + 4) t =
        some ((records s.params ((s.pkt p).data.take (s.pkt p).len.toNat)).map fun r => formatP r.1 r.2, u) ∧
      u = { s with enc := u.enc, rsp := u.rsp } ∧ u.enc.active = false ∧ u.enc.cursor = 0#16 ∧ u.enc.total = 0#16

/-! ### The packet framer -/

/-- spec/42_packet_framer.md R150. -/
def Obligations.PnewStartsPacket : Prop :=
  ∀ (p : PktSel) (src : Source) (s : State),
    encode (.pnew p src) = 0x20000000#32 ||| p.bit.setWidth 32 <<< 23 ||| src.code.setWidth 32 <<< 16 ∧
      ∃ t, exec (.pnew p src) s = .next t ∧ OnlyPacket p s t 0#32 ∧
        t.pkt p = { data := (s.pkt p).data, len := 0#8, time := s.nowMs, src := src, ovf := false }

/-- spec/42_packet_framer.md R151. -/
def Obligations.PushAppendsByte : Prop :=
  ∀ (p : PktSel) (val : Byte) (s : State), s.Inv →
    encode (.push p val) = 0x21000000#32 ||| p.bit.setWidth 32 <<< 23 ||| val.setWidth 32 ∧
      ∃ t, exec (.push p val) s = .next t ∧ OnlyPacket p s t 0#32 ∧
        ((s.pkt p).len.toNat < s.params.cap →
          (t.pkt p).len.toNat = (s.pkt p).len.toNat + 1 ∧ (t.pkt p).time = (s.pkt p).time ∧
            (t.pkt p).src = (s.pkt p).src ∧ (t.pkt p).ovf = (s.pkt p).ovf ∧
            (t.pkt p).data.length = (s.pkt p).data.length ∧
            ∀ i, readByte (t.pkt p).data i = if i = (s.pkt p).len.toNat then val else readByte (s.pkt p).data i) ∧
        (s.params.cap ≤ (s.pkt p).len.toNat → t.pkt p = { s.pkt p with ovf := true })

/-- spec/42_packet_framer.md R152. -/
def Obligations.WrbWritesByte : Prop :=
  ∀ (p : PktSel) (idx val : Byte) (s : State), s.Inv →
    encode (.wrb p idx val) =
        0x22000000#32 ||| p.bit.setWidth 32 <<< 23 ||| idx.setWidth 32 <<< 8 ||| val.setWidth 32 ∧
      (s.params.cap ≤ idx.toNat → ∃ t, exec (.wrb p idx val) s = .next t ∧ OnlyResponse s t .range 0#32) ∧
      (idx.toNat < s.params.cap →
        ∃ t, exec (.wrb p idx val) s = .next t ∧ OnlyPacket p s t 0#32 ∧ SameMeta (s.pkt p) (t.pkt p) ∧
          ∀ i, readByte (t.pkt p).data i = if i = idx.toNat then val else readByte (s.pkt p).data i)

/-- spec/42_packet_framer.md R153: below `len` the byte, between `len` and CAP an unspecified byte, at CAP and above RANGE. That
the unspecified byte is `Config.freeByte` of a counter, which the read raises, is the model's choice (log entry 3). -/
def Obligations.RdbReadsByte : Prop :=
  ∀ (p : PktSel) (idx : Byte) (s : State), s.Inv →
    encode (.rdb p idx) = 0x23000000#32 ||| p.bit.setWidth 32 <<< 23 ||| idx.setWidth 32 <<< 8 ∧
      (s.params.cap ≤ idx.toNat → ∃ t, exec (.rdb p idx) s = .next t ∧ OnlyResponse s t .range 0#32) ∧
      (idx.toNat < (s.pkt p).len.toNat →
        ∃ t, exec (.rdb p idx) s = .next t ∧
          OnlyResponse s t .ok ((readByte (s.pkt p).data idx.toNat).setWidth 32)) ∧
      ((s.pkt p).len.toNat ≤ idx.toNat → idx.toNat < s.params.cap →
        ∃ t, exec (.rdb p idx) s = .next t ∧
          t =
            { s with
              freeIdx := s.freeIdx + 1
              rsp := { status := .ok, data := (Config.freeByte s.freeIdx).setWidth 32 } })

/-- spec/42_packet_framer.md R154, field by field, with the tests of R142 to R144. -/
def Obligations.PinfoFields : Prop :=
  ∀ (p : PktSel) (s : State),
    encode (.pinfo p) = 0x24000000#32 ||| p.bit.setWidth 32 <<< 23 ∧
      ∃ t, exec (.pinfo p) s = .next t ∧ OnlyResponse s t .ok t.rsp.data ∧
        t.rsp.data.extractLsb' 0 8 = (s.pkt p).len ∧
        (t.rsp.data.getLsbD 8 = true ↔ (s.pkt p).len.toNat = s.params.longLen) ∧
        (t.rsp.data.getLsbD 9 = true ↔ (s.pkt p).len.toNat = s.params.shortLen) ∧
        (t.rsp.data.getLsbD 10 = true ↔ SizeHolds s (s.pkt p)) ∧
        (t.rsp.data.getLsbD 11 = true ↔ ChecksumHolds s (s.pkt p) false) ∧
        (t.rsp.data.getLsbD 12 = true ↔ ChecksumHolds s (s.pkt p) true) ∧
        (t.rsp.data.getLsbD 13 = true ↔ PacketValid s (s.pkt p)) ∧
        t.rsp.data.getLsbD 14 = (s.pkt p).ovf ∧ t.rsp.data.getLsbD 15 = false ∧
        t.rsp.data.extractLsb' 16 2 = (s.pkt p).src.code ∧ t.rsp.data.extractLsb' 18 6 = 0#6 ∧
        t.rsp.data.extractLsb' 24 8 = if 1 ≤ (s.pkt p).len.toNat then readByte (s.pkt p).data 0 else 0#8

/-- spec/42_packet_framer.md R155 and R156. -/
def Obligations.PtimeAndPage : Prop :=
  ∀ (p : PktSel) (s : State),
    encode (.ptime p) = 0x25000000#32 ||| p.bit.setWidth 32 <<< 23 ∧
      encode (.page p) = 0x26000000#32 ||| p.bit.setWidth 32 <<< 23 ∧
      (∃ t, exec (.ptime p) s = .next t ∧ OnlyResponse s t .ok (s.pkt p).time) ∧
      ∃ t, exec (.page p) s = .next t ∧ OnlyResponse s t .ok t.rsp.data ∧
        (t.rsp.data.toNat : Int) = ((s.nowMs.toNat : Int) - ((s.pkt p).time.toNat : Int)) % 2 ^ 32

/-- spec/42_packet_framer.md R157: the bytes below `len` complemented, nothing else; twice is the identity. -/
def Obligations.InvComplementsBytes : Prop :=
  ∀ (p : PktSel) (s : State), s.Inv →
    encode (.inv p) = 0x27000000#32 ||| p.bit.setWidth 32 <<< 23 ∧
      (∃ t, exec (.inv p) s = .next t ∧ OnlyPacket p s t 0#32 ∧ SameMeta (s.pkt p) (t.pkt p) ∧
        ∀ i,
          (readByte (t.pkt p).data i).toNat =
            if i < (s.pkt p).len.toNat then 255 - (readByte (s.pkt p).data i).toNat
            else (readByte (s.pkt p).data i).toNat) ∧
      ∃ u, execAll [.inv p, .inv p] s = .next u ∧ u.pkt p = s.pkt p

/-- spec/42_packet_framer.md R158, R145: the bits of each byte below `len` reversed, nothing else; twice is the identity. -/
def Obligations.BrevReversesBits : Prop :=
  ∀ (p : PktSel) (s : State), s.Inv →
    encode (.brev p) = 0x28000000#32 ||| p.bit.setWidth 32 <<< 23 ∧
      (∃ t, exec (.brev p) s = .next t ∧ OnlyPacket p s t 0#32 ∧ SameMeta (s.pkt p) (t.pkt p) ∧
        ∀ i,
          (i < (s.pkt p).len.toNat →
            ∀ j < 8, (readByte (t.pkt p).data i).getLsbD (7 - j) = (readByte (s.pkt p).data i).getLsbD j) ∧
          ((s.pkt p).len.toNat ≤ i → readByte (t.pkt p).data i = readByte (s.pkt p).data i)) ∧
      ∃ u, execAll [.brev p, .brev p] s = .next u ∧ u.pkt p = s.pkt p

/-- spec/42_packet_framer.md R140: the three reductions, from the empty list on, and their selection by CFG.CKALG. -/
def Obligations.ChecksumReductions : Prop :=
  (∀ s : State,
    (s.cfg.extractLsb' 8 2 = 0#2 → s.alg = .sum8) ∧ (s.cfg.extractLsb' 8 2 = 1#2 → s.alg = .xor8) ∧
      (s.cfg.extractLsb' 8 2 = 2#2 → s.alg = .sum8Eac)) ∧
  (reduce .sum8 [] = 0#8 ∧ reduce .xor8 [] = 0#8 ∧ reduce .sum8Eac [] = 0#8) ∧
    ∀ (b : List Byte) (x : Byte),
      (reduce .sum8 (b ++ [x])).toNat = ((reduce .sum8 b).toNat + x.toNat) % 256 ∧
        reduce .xor8 (b ++ [x]) = reduce .xor8 b ^^^ x ∧
        (reduce .sum8Eac (b ++ [x])).toNat =
          if (reduce .sum8Eac b).toNat + x.toNat > 255 then (reduce .sum8Eac b).toNat + x.toNat - 255
          else (reduce .sum8Eac b).toNat + x.toNat

/-- spec/42_packet_framer.md R160, R141: the checksum of every byte before the last, by the reduction CFG.CKALG selects; 0 for a
packet of at most one byte. -/
def Obligations.CkcalcAnswersChecksum : Prop :=
  ∀ (p : PktSel) (s : State),
    encode (.ckcalc p) = 0x2A000000#32 ||| p.bit.setWidth 32 <<< 23 ∧
      ∃ t c, exec (.ckcalc p) s = .next t ∧ OnlyResponse s t .ok (c.setWidth 32) ∧
        (s.cfg.extractLsb' 8 2 = 0#2 → c = reduce .sum8 ((s.pkt p).data.take ((s.pkt p).len.toNat - 1))) ∧
        (s.cfg.extractLsb' 8 2 = 1#2 → c = reduce .xor8 ((s.pkt p).data.take ((s.pkt p).len.toNat - 1))) ∧
        (s.cfg.extractLsb' 8 2 = 2#2 → c = reduce .sum8Eac ((s.pkt p).data.take ((s.pkt p).len.toNat - 1))) ∧
        ((s.pkt p).len.toNat ≤ 1 → c = 0#8)

/-- spec/42_packet_framer.md R159: the last byte becomes the checksum or its complement, so that the check of that form
holds. -/
def Obligations.CkgenSealsPacket : Prop :=
  ∀ (p : PktSel) (inverted : Bool) (s : State), s.Inv →
    encode (.ckgen p inverted) =
        0x29000000#32 ||| p.bit.setWidth 32 <<< 23 ||| (if inverted then 1#32 else 0#32) ∧
      ∃ t, exec (.ckgen p inverted) s = .next t ∧ OnlyPacket p s t 0#32 ∧ SameMeta (s.pkt p) (t.pkt p) ∧
        ((s.pkt p).len.toNat = 0 → t.pkt p = s.pkt p) ∧
        (1 ≤ (s.pkt p).len.toNat →
          ChecksumHolds t (t.pkt p) inverted ∧
            ∀ i, i ≠ (s.pkt p).len.toNat - 1 → readByte (t.pkt p).data i = readByte (s.pkt p).data i)

/-- spec/42_packet_framer.md R142, "At most one of them holds" (marked there as the spec's own inference). -/
def Obligations.ChecksumFormsExclusive : Prop :=
  ∀ (p : PktSel) (s t : State), exec (.pinfo p) s = .next t →
    ¬(t.rsp.data.getLsbD 11 = true ∧ t.rsp.data.getLsbD 12 = true)

/-- spec/42_packet_framer.md R161. -/
def Obligations.PcopyCopiesPacket : Prop :=
  ∀ (p : PktSel) (s : State),
    encode (.pcopy p) = 0x2B000000#32 ||| p.bit.setWidth 32 <<< 23 ∧
      ∃ t, exec (.pcopy p) s = .next t ∧ OnlyPacket p s t 0#32 ∧ t.pkt p = s.pkt p.other

/-! ### The demultiplexer -/

/-- spec/43_demux.md R182, its exceptions in their order. -/
def Obligations.RegRegistersSlot : Prop :=
  ∀ (val mask : Byte) (lensel : BitVec 2) (s : State), s.Inv →
    encode (.reg val mask lensel) =
        0x30000000#32 ||| lensel.setWidth 32 <<< 16 ||| mask.setWidth 32 <<< 8 ||| val.setWidth 32 ∧
      (lensel = 3#2 → ∃ t, exec (.reg val mask lensel) s = .next t ∧ OnlyResponse s t .range 0#32) ∧
      (lensel ≠ 3#2 → s.reg.lock = true →
        ∃ t, exec (.reg val mask lensel) s = .next t ∧ OnlyResponse s t .regLocked 0#32) ∧
      (lensel ≠ 3#2 → s.reg.lock = false → s.reg.nreg.toNat = s.params.nslot →
        ∃ t, exec (.reg val mask lensel) s = .next t ∧ OnlyResponse s t .regFull 0#32) ∧
      (lensel ≠ 3#2 → s.reg.lock = false → s.reg.nreg.toNat < s.params.nslot →
        ∃ t sel, exec (.reg val mask lensel) s = .next t ∧ sel.code = lensel ∧
          t =
            { s with
              reg := { s.reg with nreg := t.reg.nreg, slots := t.reg.slots }
              rsp := { status := .ok, data := s.reg.nreg.setWidth 32 } } ∧
          t.reg.nreg.toNat = s.reg.nreg.toNat + 1 ∧ t.reg.slots.length = s.reg.slots.length ∧
          t.slot s.reg.nreg.toNat =
            { s.slot s.reg.nreg.toNat with
              val := val, mask := mask, lensel := sel, hasCur := false, hasPrev := false } ∧
          ∀ j, j ≠ s.reg.nreg.toNat → t.slot j = s.slot j)

/-- spec/43_demux.md R183, with matching (R180, R181) and staging (R184). -/
def Obligations.DispClassifiesAndStages : Prop :=
  ∀ (p : PktSel) (s : State), s.Inv →
    encode (.disp p) = 0x31000000#32 ||| p.bit.setWidth 32 <<< 19 ∧
      (¬PacketValid s (s.pkt p) →
        exec (.disp p) s =
          .next
            { s with
              reg := { s.reg with lock := true }
              lastDisp := p.bit.setWidth 32 <<< 16 ||| 0xFF00#32
              rsp := { status := .ok, data := p.bit.setWidth 32 <<< 16 ||| 0xFF00#32 } }) ∧
      (PacketValid s (s.pkt p) → (∀ i, ¬SlotMatches s (s.pkt p) i) →
        exec (.disp p) s =
          .next
            { s with
              reg := { s.reg with lock := true }
              lastDisp := p.bit.setWidth 32 <<< 16 ||| 0xFF01#32
              rsp := { status := .ok, data := p.bit.setWidth 32 <<< 16 ||| 0xFF01#32 } }) ∧
      ∀ i, PacketValid s (s.pkt p) → FirstMatch s (s.pkt p) i →
        ∃ t, exec (.disp p) s = .next t ∧
          t =
            { s with
              reg := { nreg := s.reg.nreg, lock := true, slots := t.reg.slots }
              lastDisp := p.bit.setWidth 32 <<< 16 ||| BitVec.ofNat 32 (i * 256 + 2)
              rsp :=
                { status := .ok
                  data := p.bit.setWidth 32 <<< 16 ||| BitVec.ofNat 32 (i * 256 + 2) } } ∧
          t.reg.slots.length = s.reg.slots.length ∧
          t.slot i = { s.slot i with cur := s.pkt p, hasCur := true } ∧ ∀ j, j ≠ i → t.slot j = s.slot j

/-- spec/43_demux.md R192 (marked there as the spec's own inference from R180 and R181): with pairwise disjoint matchers a
valid packet goes to the one slot that claims its type byte and whose length class it meets. -/
def Obligations.DisjointMatchersAreExact : Prop :=
  ∀ (p : PktSel) (s : State) (i : Nat), s.Inv → PacketValid s (s.pkt p) → SlotMatches s (s.pkt p) i →
    (∀ j k, j < s.reg.nreg.toNat → k < s.reg.nreg.toNat → j ≠ k →
      ∀ b, ¬((s.slot j).Claims b ∧ (s.slot k).Claims b)) →
      (∀ j, SlotMatches s (s.pkt p) j → j = i) ∧
        ∃ t, exec (.disp p) s = .next t ∧ t.rsp.data.extractLsb' 0 2 = 2#2 ∧
          (t.rsp.data.extractLsb' 8 8).toNat = i ∧ (t.slot i).cur = s.pkt p ∧ ∀ j, j ≠ i → t.slot j = s.slot j

/-- spec/43_demux.md R191 (marked there as the spec's own inference from R183 to R186): the first staging of a slot is a
change; after an XFER a byte-identical packet is none, and any other one is. -/
def Obligations.ChangeDetection : Prop :=
  ∀ (p : PktSel) (slot : BitVec 4) (s : State), s.Inv → PacketValid s (s.pkt p) → FirstMatch s (s.pkt p) slot.toNat →
    ((s.slot slot.toNat).hasCur = false →
      ∃ t, execAll [.disp p, .sinfo slot] s = .next t ∧ t.rsp.status = .ok ∧ t.rsp.data.getLsbD 3 = true) ∧
      ((s.slot slot.toNat).hasCur = true →
        ∃ t, execAll [.xfer slot, .disp p, .sinfo slot] s = .next t ∧ t.rsp.status = .ok ∧
          (t.rsp.data.getLsbD 3 = true ↔ ¬SameBytes (s.pkt p) (s.slot slot.toNat).cur))

/-- spec/43_demux.md R185. -/
def Obligations.XferSnapshotsCurrent : Prop :=
  ∀ (slot : BitVec 4) (s : State), s.Inv →
    encode (.xfer slot) = 0x32000000#32 ||| slot.setWidth 32 <<< 20 ∧
      (s.params.nslot ≤ slot.toNat ∨ s.reg.nreg.toNat ≤ slot.toNat →
        ∃ t, exec (.xfer slot) s = .next t ∧ OnlyResponse s t .range 0#32) ∧
      (slot.toNat < s.params.nslot → slot.toNat < s.reg.nreg.toNat →
        ∃ t, exec (.xfer slot) s = .next t ∧ OnlySlot slot.toNat s t 0#32 ∧
          ((s.slot slot.toNat).hasCur = true →
            t.slot slot.toNat =
              { s.slot slot.toNat with prev := (s.slot slot.toNat).cur, hasPrev := true }) ∧
          ((s.slot slot.toNat).hasCur = false → t.slot slot.toNat = s.slot slot.toNat))

/-- spec/43_demux.md R187, field by field, with the change detection of R186. -/
def Obligations.SinfoFields : Prop :=
  ∀ (slot : BitVec 4) (s : State),
    encode (.sinfo slot) = 0x33000000#32 ||| slot.setWidth 32 <<< 20 ∧
      (s.params.nslot ≤ slot.toNat → ∃ t, exec (.sinfo slot) s = .next t ∧ OnlyResponse s t .range 0#32) ∧
      (slot.toNat < s.params.nslot → s.reg.nreg.toNat ≤ slot.toNat →
        ∃ t, exec (.sinfo slot) s = .next t ∧ OnlyResponse s t .ok 0#32) ∧
      (slot.toNat < s.params.nslot → slot.toNat < s.reg.nreg.toNat →
        ∃ t, exec (.sinfo slot) s = .next t ∧ OnlyResponse s t .ok t.rsp.data ∧
          t.rsp.data.getLsbD 0 = true ∧ t.rsp.data.getLsbD 1 = (s.slot slot.toNat).hasCur ∧
          t.rsp.data.getLsbD 2 = (s.slot slot.toNat).hasPrev ∧
          (t.rsp.data.getLsbD 3 = true ↔ SlotChanged (s.slot slot.toNat)) ∧
          t.rsp.data.extractLsb' 4 2 = (s.slot slot.toNat).lensel.code ∧ t.rsp.data.extractLsb' 6 2 = 0#2 ∧
          t.rsp.data.extractLsb' 8 8 =
            (if (s.slot slot.toNat).hasCur then (s.slot slot.toNat).cur.len else 0#8) ∧
          t.rsp.data.extractLsb' 16 8 = (s.slot slot.toNat).val ∧
          t.rsp.data.extractLsb' 24 8 = (s.slot slot.toNat).mask)

/-- spec/43_demux.md R188: RANGE before ABSENT, then the byte, or an unspecified byte at and above `len`. That the unspecified
byte is `Config.freeByte` of a counter, which the read raises, is the model's choice (log entry 3). -/
def Obligations.SrdbReadsSlotByte : Prop :=
  ∀ (slot : BitVec 4) (which : Which) (idx : Byte) (s : State), s.Inv →
    encode (.srdb slot which idx) =
        0x34000000#32 ||| slot.setWidth 32 <<< 20 ||| which.bit.setWidth 32 <<< 19 ||| idx.setWidth 32 <<< 8 ∧
      (s.params.nslot ≤ slot.toNat ∨ s.params.cap ≤ idx.toNat →
        ∃ t, exec (.srdb slot which idx) s = .next t ∧ OnlyResponse s t .range 0#32) ∧
      (slot.toNat < s.params.nslot → idx.toNat < s.params.cap →
        ∀ (has : Bool) (q : Packet),
          (which = .cur → has = (s.slot slot.toNat).hasCur ∧ q = (s.slot slot.toNat).cur) →
          (which = .prev → has = (s.slot slot.toNat).hasPrev ∧ q = (s.slot slot.toNat).prev) →
            (has = false → ∃ t, exec (.srdb slot which idx) s = .next t ∧ OnlyResponse s t .absent 0#32) ∧
              (has = true → idx.toNat < q.len.toNat →
                ∃ t, exec (.srdb slot which idx) s = .next t ∧
                  OnlyResponse s t .ok ((readByte q.data idx.toNat).setWidth 32)) ∧
              (has = true → q.len.toNat ≤ idx.toNat →
                ∃ t, exec (.srdb slot which idx) s = .next t ∧
                  t =
                    { s with
                      freeIdx := s.freeIdx + 1
                      rsp := { status := .ok, data := (Config.freeByte s.freeIdx).setWidth 32 } }))

/-- spec/43_demux.md R189. -/
def Obligations.SloadLoadsCurrent : Prop :=
  ∀ (slot : BitVec 4) (p : PktSel) (s : State),
    encode (.sload slot p) = 0x35000000#32 ||| slot.setWidth 32 <<< 20 ||| p.bit.setWidth 32 <<< 19 ∧
      (s.params.nslot ≤ slot.toNat → ∃ t, exec (.sload slot p) s = .next t ∧ OnlyResponse s t .range 0#32) ∧
      (slot.toNat < s.params.nslot → (s.slot slot.toNat).hasCur = false →
        ∃ t, exec (.sload slot p) s = .next t ∧ OnlyResponse s t .absent 0#32) ∧
      (slot.toNat < s.params.nslot → (s.slot slot.toNat).hasCur = true →
        ∃ t, exec (.sload slot p) s = .next t ∧ OnlyPacket p s t 0#32 ∧ t.pkt p = (s.slot slot.toNat).cur)

/-! ### Registers -/

/-- spec/44_control_regs.md R210 and spec/30_encoding.md R82: NOP changes nothing, and any other word of its group stands for no
command and is answered with ILLEGAL and 0, with no state change. That the step of such a word takes one input of a list is the
model's choice (log entry 1), and that it samples `now_ms` and `rx_src` too is the model's choice (log entry 6). -/
def Obligations.NopChangesNothing : Prop :=
  encode .nop = 0x00000000#32 ∧ (∀ s : State, ∃ t, exec .nop s = .next t ∧ OnlyResponse s t .ok 0#32) ∧
    (∀ w : Word, w.toNat < 2 ^ 28 → w ≠ 0#32 → ∀ i, decode w ≠ .ok i) ∧
    ∀ (s : State) (c : Command) (rest : List HostInput), s.inputs = .command c :: rest → c.word.toNat < 2 ^ 28 →
      c.word ≠ 0#32 →
        step s =
          .next
            { s with
              nowMs := c.nowMs, rxSrc := c.rxSrc, inputs := rest, rsp := { status := .illegal, data := 0#32 } }

/-- spec/44_control_regs.md R211, with the registers of spec/10_state.md R29 to R36 (the fields of STATUS are in
`StatusRegisterFields`). -/
def Obligations.RdregReadsRegister : Prop :=
  ∀ (r : BitVec 4) (s : State),
    encode (.rdreg r) = 0x50000000#32 ||| r.setWidth 32 <<< 16 ∧
      ∃ t, exec (.rdreg r) s = .next t ∧
        (r = 0#4 → OnlyResponse s t .ok (s.cfg.setWidth 32)) ∧
        (r = 1#4 → OnlyResponse s t .ok s.statusWord) ∧
        (r = 2#4 → OnlyResponse s t .ok (s.terrCnt.setWidth 32)) ∧
        (r = 3#4 → OnlyResponse s t .ok (s.rxCnt.setWidth 32)) ∧
        (r = 4#4 → OnlyResponse s t .ok (s.dec.tbits.setWidth 32)) ∧
        (r = 5#4 → OnlyResponse s t .ok s.lastDisp) ∧
        (r = 6#4 → OnlyResponse s t .ok (s.enc.total ++ s.enc.cursor)) ∧
        (r = 7#4 → OnlyResponse s t .ok s.nowMs) ∧
        (8 ≤ r.toNat → OnlyResponse s t .range 0#32)

/-- spec/44_control_regs.md R212, ILLEGAL before RANGE. -/
def Obligations.WrregWritesCfg : Prop :=
  ∀ (r : BitVec 4) (v : Half) (s : State),
    encode (.wrreg r v) = 0x51000000#32 ||| r.setWidth 32 <<< 16 ||| v.setWidth 32 ∧
      (1 ≤ r.toNat ∧ r.toNat ≤ 7 ∨ r = 0#4 ∧ v &&& 0xCC80#16 ≠ 0#16 →
        ∃ t, exec (.wrreg r v) s = .next t ∧ OnlyResponse s t .illegal 0#32) ∧
      (8 ≤ r.toNat → ∃ t, exec (.wrreg r v) s = .next t ∧ OnlyResponse s t .range 0#32) ∧
      (r = 0#4 → v &&& 0xCC80#16 = 0#16 → (100 < v.toNat % 128 ∨ v.toNat / 256 % 4 = 3) →
        ∃ t, exec (.wrreg r v) s = .next t ∧ OnlyResponse s t .range 0#32) ∧
      (r = 0#4 → v &&& 0xCC80#16 = 0#16 → v.toNat % 128 ≤ 100 → v.toNat / 256 % 4 ≠ 3 →
        exec (.wrreg r v) s = .next { s with cfg := v, rsp := { status := .ok, data := 0#32 } })

/-- spec/44_control_regs.md R213. -/
def Obligations.ClrstClearsSticky : Prop :=
  ∀ (v : Half) (s : State),
    encode (.clrst v) = 0x52000000#32 ||| v.setWidth 32 ∧
      (v &&& 0x3FF8#16 ≠ 0#16 → ∃ t, exec (.clrst v) s = .next t ∧ OnlyResponse s t .illegal 0#32) ∧
      (v &&& 0x3FF8#16 = 0#16 →
        ∃ t, exec (.clrst v) s = .next t ∧
          t =
            { s with
              flags := t.flags, terrCnt := t.terrCnt, rxCnt := t.rxCnt, rsp := { status := .ok, data := 0#32 } } ∧
          t.flags.rxReady = (if v.getLsbD 0 then false else s.flags.rxReady) ∧
          t.flags.terr = (if v.getLsbD 1 then false else s.flags.terr) ∧
          t.flags.lastTerr = (if v.getLsbD 1 then .none else s.flags.lastTerr) ∧
          t.flags.rxOvf = (if v.getLsbD 2 then false else s.flags.rxOvf) ∧
          t.rxCnt = (if v.getLsbD 14 then 0#16 else s.rxCnt) ∧
          t.terrCnt = (if v.getLsbD 15 then 0#16 else s.terrCnt))
end

