-- ==== Sys2Proof/Laws/Buffers.lean ====
section
/-! SUPPORT. The laws of the byte arrays: a read after each operation, and the number of bytes, which no operation changes. -/

namespace Sys2Proof.Machine

@[simp] theorem length_writeByte (b : List Byte) (i : Nat) (v : Byte) : (writeByte b i v).length = b.length := by
  simp [writeByte]

/-- A read after a write: the written byte at its index, every other byte as before. -/
theorem readByte_writeByte (b : List Byte) (i j : Nat) (v : Byte) (h : i < b.length) :
    readByte (writeByte b i v) j = if j = i then v else readByte b j := by
  by_cases hj : j = i
  · subst hj; simp [readByte, writeByte, h]
  · simp [readByte, writeByte, hj, Ne.symm hj]

/-- A write leaves every other byte alone, whether or not its index is in the array. -/
theorem readByte_writeByte_ne (b : List Byte) (i j : Nat) (v : Byte) (h : j ≠ i) :
    readByte (writeByte b i v) j = readByte b j := by
  simp [readByte, writeByte, Ne.symm h]

@[simp] theorem length_copyBytes (n : Nat) (src dst : List Byte) : (copyBytes n src dst).length = dst.length := by
  induction n generalizing src dst with
  | zero => cases dst <;> rfl
  | succ n ih => cases dst with
    | nil => rfl
    | cons _ _ => simp [copyBytes, ih]

@[simp] theorem readByte_nil (i : Nat) : readByte [] i = 0#8 := by simp [readByte]
@[simp] theorem readByte_cons_zero (x : Byte) (b : List Byte) : readByte (x :: b) 0 = x := by simp [readByte]
@[simp] theorem readByte_cons_succ (x : Byte) (b : List Byte) (i : Nat) : readByte (x :: b) (i + 1) = readByte b i := by
  simp [readByte]

/-- A read past the array's end. -/
theorem readByte_of_ge (b : List Byte) (i : Nat) (h : b.length ≤ i) : readByte b i = 0#8 := by
  simp [readByte, h]

/-- A read after copying the first `n` bytes. -/
theorem readByte_copyBytes (n : Nat) (src dst : List Byte) (i : Nat) (h : i < dst.length) :
    readByte (copyBytes n src dst) i = if i < n then readByte src i else readByte dst i := by
  induction n generalizing src dst i with
  | zero => simp [copyBytes]
  | succ n ih =>
    cases dst with
    | nil => simp at h
    | cons y dst =>
      cases i with
      | zero => cases src <;> simp [copyBytes, readByte]
      | succ i =>
        have h' : i < dst.length := by simpa using h
        cases src <;> simp [copyBytes, ih _ _ _ h']

@[simp] theorem length_mapBytes (f : Byte → Byte) (n : Nat) (b : List Byte) : (mapBytes f n b).length = b.length := by
  induction n generalizing b with
  | zero => rfl
  | succ n ih => cases b with
    | nil => rfl
    | cons _ _ => simp [mapBytes, ih]

/-- A read after mapping the first `n` bytes. -/
theorem readByte_mapBytes (f : Byte → Byte) (n : Nat) (b : List Byte) (i : Nat) (h : i < b.length) :
    readByte (mapBytes f n b) i = if i < n then f (readByte b i) else readByte b i := by
  induction n generalizing b i with
  | zero => simp [mapBytes]
  | succ n ih =>
    cases b with
    | nil => simp at h
    | cons y b =>
      cases i with
      | zero => simp [mapBytes]
      | succ i => simpa [mapBytes] using ih b i (by simpa using h)

/-- Mapping twice with an involution is the identity. -/
theorem mapBytes_mapBytes (f : Byte → Byte) (hf : ∀ x, f (f x) = x) (n : Nat) (b : List Byte) :
    mapBytes f n (mapBytes f n b) = b := by
  induction n generalizing b with
  | zero => rfl
  | succ n ih => cases b with
    | nil => rfl
    | cons x b => simp [mapBytes, hf, ih]

/-- Two arrays of one length with the same bytes are equal. -/
theorem ext_readByte (a b : List Byte) (hl : a.length = b.length) (h : ∀ i < a.length, readByte a i = readByte b i) :
    a = b := by
  apply List.ext_getElem hl
  intro i h1 h2
  simpa [readByte, h1, h2] using h i h1

/-- The first `n` bytes hold the same reads. -/
theorem readByte_take (b : List Byte) (n i : Nat) (h : i < n) : readByte (b.take n) i = readByte b i := by
  simp [readByte, h]

end Sys2Proof.Machine
end

