-- ==== Sys2Proof/Laws/Fields.lean ====
section
/-! SUPPORT. The laws of the fields of a word: what `bits` reads of a word put together from `fld` terms. -/

namespace Sys2Proof

/-- One bit of a placed field. -/
theorem getLsbD_fld {n : Nat} (x : BitVec n) (pos i : Nat) :
    (fld x pos).getLsbD i = (decide (i < 32) && decide (pos ≤ i) && x.getLsbD (i - pos)) := by
  by_cases h : i < 32 <;> by_cases h' : pos ≤ i <;> simp [fld, h, h', Nat.not_lt.mpr, Nat.not_le.mp]

/-- One bit of a field read from a word. -/
theorem getLsbD_bits (w : Word) (lo n i : Nat) : (bits w lo n).getLsbD i = (decide (i < n) && w.getLsbD (lo + i)) := by
  rw [bits, BitVec.getLsbD_extractLsb']

/-- A field of a word put together from two parts. -/
theorem bits_or (a b : Word) (lo n : Nat) : bits (a ||| b) lo n = bits a lo n ||| bits b lo n := by
  apply BitVec.eq_of_getLsbD_eq
  intro i hi
  simp only [getLsbD_bits, BitVec.getLsbD_or, hi, decide_true, Bool.true_and]

/-- A placed field read back. -/
theorem bits_fld_self {n : Nat} (x : BitVec n) (lo : Nat) (h : lo + n ≤ 32) : bits (fld x lo) lo n = x := by
  apply BitVec.eq_of_getLsbD_eq
  intro i hi
  have h32 : lo + i < 32 := by omega
  simp only [getLsbD_bits, getLsbD_fld, hi, h32, decide_true, Bool.true_and, Nat.le_add_right, Nat.add_sub_cancel_left]

/-- A placed field leaves the bits above it 0. -/
theorem bits_fld_above {m : Nat} (x : BitVec m) (pos lo n : Nat) (h : pos + m ≤ lo) : bits (fld x pos) lo n = 0 := by
  apply BitVec.eq_of_getLsbD_eq
  intro i hi
  have hx : x.getLsbD (lo + i - pos) = false := BitVec.getLsbD_of_ge _ _ (by omega)
  simp only [getLsbD_bits, getLsbD_fld, hx, Bool.and_false, BitVec.ofNat_eq_ofNat, BitVec.getLsbD_zero]

/-- A placed field leaves the bits below it 0. -/
theorem bits_fld_below {m : Nat} (x : BitVec m) (pos lo n : Nat) (h : lo + n ≤ pos) : bits (fld x pos) lo n = 0 := by
  apply BitVec.eq_of_getLsbD_eq
  intro i hi
  have hp : ¬pos ≤ lo + i := by omega
  simp only [getLsbD_bits, getLsbD_fld, hp, decide_false, Bool.and_false, Bool.false_and, BitVec.ofNat_eq_ofNat,
    BitVec.getLsbD_zero]

/-- One bit of a word is the bit of the field that holds it. -/
theorem getLsbD_fld_bits (w : Word) (lo n i : Nat) :
    (fld (bits w lo n) lo).getLsbD i = (decide (i < 32) && decide (lo ≤ i) && decide (i < lo + n) && w.getLsbD i) := by
  by_cases h : lo ≤ i
  · have hs : lo + (i - lo) = i := by omega
    have hd : decide (i - lo < n) = decide (i < lo + n) := decide_eq_decide.mpr (by omega)
    simp only [getLsbD_fld, getLsbD_bits, hs, hd, Bool.and_assoc]
  · simp only [getLsbD_fld, h, decide_false, Bool.and_false, Bool.false_and]

/-- A word split at the fields of format P. -/
theorem split_formatP (w : Word) : fld (bits w 28 4) 28 ||| fld (bits w 27 1) 27 ||| fld (bits w 0 27) 0 = w := by
  apply BitVec.eq_of_getLsbD_eq
  intro i hi
  simp only [BitVec.getLsbD_or, getLsbD_fld_bits]
  cases w.getLsbD i <;> simp
  omega

/-- A word split at the fields of format K, the reserved ones included. -/
theorem split_formatK (w : Word) :
    fld (bits w 28 4) 28 ||| fld (bits w 24 4) 24 ||| fld (bits w 23 1) 23 ||| fld (bits w 18 5) 18 |||
      fld (bits w 16 2) 16 ||| fld (bits w 8 8) 8 ||| fld (bits w 0 8) 0 = w := by
  apply BitVec.eq_of_getLsbD_eq
  intro i hi
  simp only [BitVec.getLsbD_or, getLsbD_fld_bits]
  cases w.getLsbD i <;> simp
  omega

/-- A word split at the fields of format D, the reserved one included. -/
theorem split_formatD (w : Word) :
    fld (bits w 28 4) 28 ||| fld (bits w 24 4) 24 ||| fld (bits w 20 4) 20 ||| fld (bits w 19 1) 19 |||
      fld (bits w 18 1) 18 ||| fld (bits w 16 2) 16 ||| fld (bits w 8 8) 8 ||| fld (bits w 0 8) 0 = w := by
  apply BitVec.eq_of_getLsbD_eq
  intro i hi
  simp only [BitVec.getLsbD_or, getLsbD_fld_bits]
  cases w.getLsbD i <;> simp
  omega

/-- A word split at the fields of format T, the reserved one included. -/
theorem split_formatT (w : Word) :
    fld (bits w 28 4) 28 ||| fld (bits w 24 4) 24 ||| fld (bits w 23 1) 23 ||| fld (bits w 0 23) 0 = w := by
  apply BitVec.eq_of_getLsbD_eq
  intro i hi
  simp only [BitVec.getLsbD_or, getLsbD_fld_bits]
  cases w.getLsbD i <;> simp
  omega

/-- A word split at the fields of format R, the reserved one included. -/
theorem split_formatR (w : Word) :
    fld (bits w 28 4) 28 ||| fld (bits w 24 4) 24 ||| fld (bits w 20 4) 20 ||| fld (bits w 16 4) 16 |||
      fld (bits w 0 16) 0 = w := by
  apply BitVec.eq_of_getLsbD_eq
  intro i hi
  simp only [BitVec.getLsbD_or, getLsbD_fld_bits]
  cases w.getLsbD i <;> simp
  omega

/-- A field with value 0 puts no bit. -/
@[simp] theorem fld_zero (n pos : Nat) : fld (0#n) pos = 0#32 := by simp [fld]

@[simp] theorem levelOf_bit (l : Level) : levelOf l.bit = l := by cases l <;> rfl
@[simp] theorem pktSelOf_bit (p : PktSel) : pktSelOf p.bit = p := by cases p <;> rfl
@[simp] theorem whichOf_bit (w : Which) : whichOf w.bit = w := by cases w <;> rfl
@[simp] theorem sourceOf_code (c : Source) : sourceOf c.code = c := by cases c <;> rfl

@[simp] theorem bit_levelOf (b : BitVec 1) : (levelOf b).bit = b := by revert b; decide
@[simp] theorem bit_pktSelOf (b : BitVec 1) : (pktSelOf b).bit = b := by revert b; decide
@[simp] theorem bit_whichOf (b : BitVec 1) : (whichOf b).bit = b := by revert b; decide
@[simp] theorem code_sourceOf (c : BitVec 2) : (sourceOf c).code = c := by revert c; decide

/-- What `whenZero` answers. -/
theorem whenZero_ok (ok : Bool) (i j : Instr) : whenZero ok i = .ok j ↔ ok = true ∧ i = j := by
  cases ok <;> simp [whenZero]

end Sys2Proof
end

