-- ==== Sys2Proof/Laws/State.lean ====
section
/-! SUPPORT. One lemma per field per named update of the state, each true by unfolding, so that no proof unfolds an update. -/

namespace Sys2Proof.Machine

section

variable (s : State)

/-! `State.withRsp` -/

@[simp] theorem State.withRsp_params (st : Status) (d : Word) : (s.withRsp st d).params = s.params := rfl
@[simp] theorem State.withRsp_rxp (st : Status) (d : Word) : (s.withRsp st d).rxp = s.rxp := rfl
@[simp] theorem State.withRsp_txp (st : Status) (d : Word) : (s.withRsp st d).txp = s.txp := rfl
@[simp] theorem State.withRsp_dec (st : Status) (d : Word) : (s.withRsp st d).dec = s.dec := rfl
@[simp] theorem State.withRsp_enc (st : Status) (d : Word) : (s.withRsp st d).enc = s.enc := rfl
@[simp] theorem State.withRsp_reg (st : Status) (d : Word) : (s.withRsp st d).reg = s.reg := rfl
@[simp] theorem State.withRsp_cfg (st : Status) (d : Word) : (s.withRsp st d).cfg = s.cfg := rfl
@[simp] theorem State.withRsp_flags (st : Status) (d : Word) : (s.withRsp st d).flags = s.flags := rfl
@[simp] theorem State.withRsp_terrCnt (st : Status) (d : Word) : (s.withRsp st d).terrCnt = s.terrCnt := rfl
@[simp] theorem State.withRsp_rxCnt (st : Status) (d : Word) : (s.withRsp st d).rxCnt = s.rxCnt := rfl
@[simp] theorem State.withRsp_lastDisp (st : Status) (d : Word) : (s.withRsp st d).lastDisp = s.lastDisp := rfl
@[simp] theorem State.withRsp_rsp (st : Status) (d : Word) : (s.withRsp st d).rsp = { status := st, data := d } := rfl
@[simp] theorem State.withRsp_nowMs (st : Status) (d : Word) : (s.withRsp st d).nowMs = s.nowMs := rfl
@[simp] theorem State.withRsp_rxSrc (st : Status) (d : Word) : (s.withRsp st d).rxSrc = s.rxSrc := rfl
@[simp] theorem State.withRsp_inputs (st : Status) (d : Word) : (s.withRsp st d).inputs = s.inputs := rfl
@[simp] theorem State.withRsp_freeIdx (st : Status) (d : Word) : (s.withRsp st d).freeIdx = s.freeIdx := rfl
@[simp] theorem State.withRsp_pkt (st : Status) (d : Word) (p : PktSel) : (s.withRsp st d).pkt p = s.pkt p := by cases p <;> rfl
@[simp] theorem State.withRsp_slot (st : Status) (d : Word) (k : Nat) : (s.withRsp st d).slot k = s.slot k := rfl

/-! `State.advanceFree` -/

@[simp] theorem State.advanceFree_params : (s.advanceFree).params = s.params := rfl
@[simp] theorem State.advanceFree_rxp : (s.advanceFree).rxp = s.rxp := rfl
@[simp] theorem State.advanceFree_txp : (s.advanceFree).txp = s.txp := rfl
@[simp] theorem State.advanceFree_dec : (s.advanceFree).dec = s.dec := rfl
@[simp] theorem State.advanceFree_enc : (s.advanceFree).enc = s.enc := rfl
@[simp] theorem State.advanceFree_reg : (s.advanceFree).reg = s.reg := rfl
@[simp] theorem State.advanceFree_cfg : (s.advanceFree).cfg = s.cfg := rfl
@[simp] theorem State.advanceFree_flags : (s.advanceFree).flags = s.flags := rfl
@[simp] theorem State.advanceFree_terrCnt : (s.advanceFree).terrCnt = s.terrCnt := rfl
@[simp] theorem State.advanceFree_rxCnt : (s.advanceFree).rxCnt = s.rxCnt := rfl
@[simp] theorem State.advanceFree_lastDisp : (s.advanceFree).lastDisp = s.lastDisp := rfl
@[simp] theorem State.advanceFree_rsp : (s.advanceFree).rsp = s.rsp := rfl
@[simp] theorem State.advanceFree_nowMs : (s.advanceFree).nowMs = s.nowMs := rfl
@[simp] theorem State.advanceFree_rxSrc : (s.advanceFree).rxSrc = s.rxSrc := rfl
@[simp] theorem State.advanceFree_inputs : (s.advanceFree).inputs = s.inputs := rfl
@[simp] theorem State.advanceFree_freeIdx : (s.advanceFree).freeIdx = s.freeIdx + 1 := rfl
@[simp] theorem State.advanceFree_pkt (p : PktSel) : (s.advanceFree).pkt p = s.pkt p := by cases p <;> rfl
@[simp] theorem State.advanceFree_slot (k : Nat) : (s.advanceFree).slot k = s.slot k := rfl

/-! `State.sample` -/

@[simp] theorem State.sample_params (c : Command) (rest : List HostInput) : (s.sample c rest).params = s.params := rfl
@[simp] theorem State.sample_rxp (c : Command) (rest : List HostInput) : (s.sample c rest).rxp = s.rxp := rfl
@[simp] theorem State.sample_txp (c : Command) (rest : List HostInput) : (s.sample c rest).txp = s.txp := rfl
@[simp] theorem State.sample_dec (c : Command) (rest : List HostInput) : (s.sample c rest).dec = s.dec := rfl
@[simp] theorem State.sample_enc (c : Command) (rest : List HostInput) : (s.sample c rest).enc = s.enc := rfl
@[simp] theorem State.sample_reg (c : Command) (rest : List HostInput) : (s.sample c rest).reg = s.reg := rfl
@[simp] theorem State.sample_cfg (c : Command) (rest : List HostInput) : (s.sample c rest).cfg = s.cfg := rfl
@[simp] theorem State.sample_flags (c : Command) (rest : List HostInput) : (s.sample c rest).flags = s.flags := rfl
@[simp] theorem State.sample_terrCnt (c : Command) (rest : List HostInput) : (s.sample c rest).terrCnt = s.terrCnt := rfl
@[simp] theorem State.sample_rxCnt (c : Command) (rest : List HostInput) : (s.sample c rest).rxCnt = s.rxCnt := rfl
@[simp] theorem State.sample_lastDisp (c : Command) (rest : List HostInput) : (s.sample c rest).lastDisp = s.lastDisp := rfl
@[simp] theorem State.sample_rsp (c : Command) (rest : List HostInput) : (s.sample c rest).rsp = s.rsp := rfl
@[simp] theorem State.sample_nowMs (c : Command) (rest : List HostInput) : (s.sample c rest).nowMs = c.nowMs := rfl
@[simp] theorem State.sample_rxSrc (c : Command) (rest : List HostInput) : (s.sample c rest).rxSrc = c.rxSrc := rfl
@[simp] theorem State.sample_inputs (c : Command) (rest : List HostInput) : (s.sample c rest).inputs = rest := rfl
@[simp] theorem State.sample_freeIdx (c : Command) (rest : List HostInput) : (s.sample c rest).freeIdx = s.freeIdx := rfl
@[simp] theorem State.sample_pkt (c : Command) (rest : List HostInput) (p : PktSel) : (s.sample c rest).pkt p = s.pkt p := by cases p <;> rfl
@[simp] theorem State.sample_slot (c : Command) (rest : List HostInput) (k : Nat) : (s.sample c rest).slot k = s.slot k := rfl

/-! `State.pend` -/

@[simp] theorem State.pend_params (w : Word) : (s.pend w).params = s.params := rfl
@[simp] theorem State.pend_rxp (w : Word) : (s.pend w).rxp = s.rxp := rfl
@[simp] theorem State.pend_txp (w : Word) : (s.pend w).txp = s.txp := rfl
@[simp] theorem State.pend_dec (w : Word) : (s.pend w).dec = s.dec := rfl
@[simp] theorem State.pend_enc (w : Word) : (s.pend w).enc = s.enc := rfl
@[simp] theorem State.pend_reg (w : Word) : (s.pend w).reg = s.reg := rfl
@[simp] theorem State.pend_cfg (w : Word) : (s.pend w).cfg = s.cfg := rfl
@[simp] theorem State.pend_flags (w : Word) : (s.pend w).flags = s.flags := rfl
@[simp] theorem State.pend_terrCnt (w : Word) : (s.pend w).terrCnt = s.terrCnt := rfl
@[simp] theorem State.pend_rxCnt (w : Word) : (s.pend w).rxCnt = s.rxCnt := rfl
@[simp] theorem State.pend_lastDisp (w : Word) : (s.pend w).lastDisp = s.lastDisp := rfl
@[simp] theorem State.pend_rsp (w : Word) : (s.pend w).rsp = s.rsp := rfl
@[simp] theorem State.pend_nowMs (w : Word) : (s.pend w).nowMs = s.nowMs := rfl
@[simp] theorem State.pend_rxSrc (w : Word) : (s.pend w).rxSrc = s.rxSrc := rfl
@[simp] theorem State.pend_inputs (w : Word) : (s.pend w).inputs = .command { word := w, nowMs := s.nowMs, rxSrc := s.rxSrc } :: s.inputs := rfl
@[simp] theorem State.pend_freeIdx (w : Word) : (s.pend w).freeIdx = s.freeIdx := rfl
@[simp] theorem State.pend_pkt (w : Word) (p : PktSel) : (s.pend w).pkt p = s.pkt p := by cases p <;> rfl
@[simp] theorem State.pend_slot (w : Word) (k : Nat) : (s.pend w).slot k = s.slot k := rfl

/-! `State.setSlot` -/

@[simp] theorem State.setSlot_params (i : Nat) (v : Slot) : (s.setSlot i v).params = s.params := rfl
@[simp] theorem State.setSlot_rxp (i : Nat) (v : Slot) : (s.setSlot i v).rxp = s.rxp := rfl
@[simp] theorem State.setSlot_txp (i : Nat) (v : Slot) : (s.setSlot i v).txp = s.txp := rfl
@[simp] theorem State.setSlot_dec (i : Nat) (v : Slot) : (s.setSlot i v).dec = s.dec := rfl
@[simp] theorem State.setSlot_enc (i : Nat) (v : Slot) : (s.setSlot i v).enc = s.enc := rfl
@[simp] theorem State.setSlot_reg (i : Nat) (v : Slot) : (s.setSlot i v).reg = { s.reg with slots := s.reg.slots.set i v } := rfl
@[simp] theorem State.setSlot_cfg (i : Nat) (v : Slot) : (s.setSlot i v).cfg = s.cfg := rfl
@[simp] theorem State.setSlot_flags (i : Nat) (v : Slot) : (s.setSlot i v).flags = s.flags := rfl
@[simp] theorem State.setSlot_terrCnt (i : Nat) (v : Slot) : (s.setSlot i v).terrCnt = s.terrCnt := rfl
@[simp] theorem State.setSlot_rxCnt (i : Nat) (v : Slot) : (s.setSlot i v).rxCnt = s.rxCnt := rfl
@[simp] theorem State.setSlot_lastDisp (i : Nat) (v : Slot) : (s.setSlot i v).lastDisp = s.lastDisp := rfl
@[simp] theorem State.setSlot_rsp (i : Nat) (v : Slot) : (s.setSlot i v).rsp = s.rsp := rfl
@[simp] theorem State.setSlot_nowMs (i : Nat) (v : Slot) : (s.setSlot i v).nowMs = s.nowMs := rfl
@[simp] theorem State.setSlot_rxSrc (i : Nat) (v : Slot) : (s.setSlot i v).rxSrc = s.rxSrc := rfl
@[simp] theorem State.setSlot_inputs (i : Nat) (v : Slot) : (s.setSlot i v).inputs = s.inputs := rfl
@[simp] theorem State.setSlot_freeIdx (i : Nat) (v : Slot) : (s.setSlot i v).freeIdx = s.freeIdx := rfl
@[simp] theorem State.setSlot_pkt (i : Nat) (v : Slot) (p : PktSel) : (s.setSlot i v).pkt p = s.pkt p := by cases p <;> rfl

/-! `State.stage` -/

@[simp] theorem State.stage_params (i : Nat) (q : Packet) : (s.stage i q).params = s.params := rfl
@[simp] theorem State.stage_rxp (i : Nat) (q : Packet) : (s.stage i q).rxp = s.rxp := rfl
@[simp] theorem State.stage_txp (i : Nat) (q : Packet) : (s.stage i q).txp = s.txp := rfl
@[simp] theorem State.stage_dec (i : Nat) (q : Packet) : (s.stage i q).dec = s.dec := rfl
@[simp] theorem State.stage_enc (i : Nat) (q : Packet) : (s.stage i q).enc = s.enc := rfl
@[simp] theorem State.stage_reg (i : Nat) (q : Packet) : (s.stage i q).reg = { s.reg with slots := s.reg.slots.set i { s.slot i with cur := q, hasCur := true } } := rfl
@[simp] theorem State.stage_cfg (i : Nat) (q : Packet) : (s.stage i q).cfg = s.cfg := rfl
@[simp] theorem State.stage_flags (i : Nat) (q : Packet) : (s.stage i q).flags = s.flags := rfl
@[simp] theorem State.stage_terrCnt (i : Nat) (q : Packet) : (s.stage i q).terrCnt = s.terrCnt := rfl
@[simp] theorem State.stage_rxCnt (i : Nat) (q : Packet) : (s.stage i q).rxCnt = s.rxCnt := rfl
@[simp] theorem State.stage_lastDisp (i : Nat) (q : Packet) : (s.stage i q).lastDisp = s.lastDisp := rfl
@[simp] theorem State.stage_rsp (i : Nat) (q : Packet) : (s.stage i q).rsp = s.rsp := rfl
@[simp] theorem State.stage_nowMs (i : Nat) (q : Packet) : (s.stage i q).nowMs = s.nowMs := rfl
@[simp] theorem State.stage_rxSrc (i : Nat) (q : Packet) : (s.stage i q).rxSrc = s.rxSrc := rfl
@[simp] theorem State.stage_inputs (i : Nat) (q : Packet) : (s.stage i q).inputs = s.inputs := rfl
@[simp] theorem State.stage_freeIdx (i : Nat) (q : Packet) : (s.stage i q).freeIdx = s.freeIdx := rfl
@[simp] theorem State.stage_pkt (i : Nat) (q : Packet) (p : PktSel) : (s.stage i q).pkt p = s.pkt p := by cases p <;> rfl

/-! `State.lockRegistry` -/

@[simp] theorem State.lockRegistry_params : (s.lockRegistry).params = s.params := rfl
@[simp] theorem State.lockRegistry_rxp : (s.lockRegistry).rxp = s.rxp := rfl
@[simp] theorem State.lockRegistry_txp : (s.lockRegistry).txp = s.txp := rfl
@[simp] theorem State.lockRegistry_dec : (s.lockRegistry).dec = s.dec := rfl
@[simp] theorem State.lockRegistry_enc : (s.lockRegistry).enc = s.enc := rfl
@[simp] theorem State.lockRegistry_reg : (s.lockRegistry).reg = { s.reg with lock := true } := rfl
@[simp] theorem State.lockRegistry_cfg : (s.lockRegistry).cfg = s.cfg := rfl
@[simp] theorem State.lockRegistry_flags : (s.lockRegistry).flags = s.flags := rfl
@[simp] theorem State.lockRegistry_terrCnt : (s.lockRegistry).terrCnt = s.terrCnt := rfl
@[simp] theorem State.lockRegistry_rxCnt : (s.lockRegistry).rxCnt = s.rxCnt := rfl
@[simp] theorem State.lockRegistry_lastDisp : (s.lockRegistry).lastDisp = s.lastDisp := rfl
@[simp] theorem State.lockRegistry_rsp : (s.lockRegistry).rsp = s.rsp := rfl
@[simp] theorem State.lockRegistry_nowMs : (s.lockRegistry).nowMs = s.nowMs := rfl
@[simp] theorem State.lockRegistry_rxSrc : (s.lockRegistry).rxSrc = s.rxSrc := rfl
@[simp] theorem State.lockRegistry_inputs : (s.lockRegistry).inputs = s.inputs := rfl
@[simp] theorem State.lockRegistry_freeIdx : (s.lockRegistry).freeIdx = s.freeIdx := rfl
@[simp] theorem State.lockRegistry_pkt (p : PktSel) : (s.lockRegistry).pkt p = s.pkt p := by cases p <;> rfl

/-! `State.setPhase` -/

@[simp] theorem State.setPhase_params (ph : Phase) : (s.setPhase ph).params = s.params := rfl
@[simp] theorem State.setPhase_rxp (ph : Phase) : (s.setPhase ph).rxp = s.rxp := rfl
@[simp] theorem State.setPhase_txp (ph : Phase) : (s.setPhase ph).txp = s.txp := rfl
@[simp] theorem State.setPhase_dec (ph : Phase) : (s.setPhase ph).dec = { s.dec with phase := ph } := rfl
@[simp] theorem State.setPhase_enc (ph : Phase) : (s.setPhase ph).enc = s.enc := rfl
@[simp] theorem State.setPhase_reg (ph : Phase) : (s.setPhase ph).reg = s.reg := rfl
@[simp] theorem State.setPhase_cfg (ph : Phase) : (s.setPhase ph).cfg = s.cfg := rfl
@[simp] theorem State.setPhase_flags (ph : Phase) : (s.setPhase ph).flags = s.flags := rfl
@[simp] theorem State.setPhase_terrCnt (ph : Phase) : (s.setPhase ph).terrCnt = s.terrCnt := rfl
@[simp] theorem State.setPhase_rxCnt (ph : Phase) : (s.setPhase ph).rxCnt = s.rxCnt := rfl
@[simp] theorem State.setPhase_lastDisp (ph : Phase) : (s.setPhase ph).lastDisp = s.lastDisp := rfl
@[simp] theorem State.setPhase_rsp (ph : Phase) : (s.setPhase ph).rsp = s.rsp := rfl
@[simp] theorem State.setPhase_nowMs (ph : Phase) : (s.setPhase ph).nowMs = s.nowMs := rfl
@[simp] theorem State.setPhase_rxSrc (ph : Phase) : (s.setPhase ph).rxSrc = s.rxSrc := rfl
@[simp] theorem State.setPhase_inputs (ph : Phase) : (s.setPhase ph).inputs = s.inputs := rfl
@[simp] theorem State.setPhase_freeIdx (ph : Phase) : (s.setPhase ph).freeIdx = s.freeIdx := rfl
@[simp] theorem State.setPhase_pkt (ph : Phase) (p : PktSel) : (s.setPhase ph).pkt p = s.pkt p := by cases p <;> rfl
@[simp] theorem State.setPhase_slot (ph : Phase) (k : Nat) : (s.setPhase ph).slot k = s.slot k := rfl

/-! `State.clearFrame` -/

@[simp] theorem State.clearFrame_params : (s.clearFrame).params = s.params := rfl
@[simp] theorem State.clearFrame_rxp : (s.clearFrame).rxp = s.rxp := rfl
@[simp] theorem State.clearFrame_txp : (s.clearFrame).txp = s.txp := rfl
@[simp] theorem State.clearFrame_dec : (s.clearFrame).dec = { s.dec with phase := .idle, tbits := 0#16, sr := 0#8 } := rfl
@[simp] theorem State.clearFrame_enc : (s.clearFrame).enc = s.enc := rfl
@[simp] theorem State.clearFrame_reg : (s.clearFrame).reg = s.reg := rfl
@[simp] theorem State.clearFrame_cfg : (s.clearFrame).cfg = s.cfg := rfl
@[simp] theorem State.clearFrame_flags : (s.clearFrame).flags = s.flags := rfl
@[simp] theorem State.clearFrame_terrCnt : (s.clearFrame).terrCnt = s.terrCnt := rfl
@[simp] theorem State.clearFrame_rxCnt : (s.clearFrame).rxCnt = s.rxCnt := rfl
@[simp] theorem State.clearFrame_lastDisp : (s.clearFrame).lastDisp = s.lastDisp := rfl
@[simp] theorem State.clearFrame_rsp : (s.clearFrame).rsp = s.rsp := rfl
@[simp] theorem State.clearFrame_nowMs : (s.clearFrame).nowMs = s.nowMs := rfl
@[simp] theorem State.clearFrame_rxSrc : (s.clearFrame).rxSrc = s.rxSrc := rfl
@[simp] theorem State.clearFrame_inputs : (s.clearFrame).inputs = s.inputs := rfl
@[simp] theorem State.clearFrame_freeIdx : (s.clearFrame).freeIdx = s.freeIdx := rfl
@[simp] theorem State.clearFrame_pkt (p : PktSel) : (s.clearFrame).pkt p = s.pkt p := by cases p <;> rfl
@[simp] theorem State.clearFrame_slot (k : Nat) : (s.clearFrame).slot k = s.slot k := rfl

/-! `State.recordTerr` -/

@[simp] theorem State.recordTerr_params (c : Cause) : (s.recordTerr c).params = s.params := rfl
@[simp] theorem State.recordTerr_rxp (c : Cause) : (s.recordTerr c).rxp = s.rxp := rfl
@[simp] theorem State.recordTerr_txp (c : Cause) : (s.recordTerr c).txp = s.txp := rfl
@[simp] theorem State.recordTerr_dec (c : Cause) : (s.recordTerr c).dec = s.dec := rfl
@[simp] theorem State.recordTerr_enc (c : Cause) : (s.recordTerr c).enc = s.enc := rfl
@[simp] theorem State.recordTerr_reg (c : Cause) : (s.recordTerr c).reg = s.reg := rfl
@[simp] theorem State.recordTerr_cfg (c : Cause) : (s.recordTerr c).cfg = s.cfg := rfl
@[simp] theorem State.recordTerr_flags (c : Cause) : (s.recordTerr c).flags = { s.flags with terr := true, lastTerr := c } := rfl
@[simp] theorem State.recordTerr_terrCnt (c : Cause) : (s.recordTerr c).terrCnt = satInc s.terrCnt := rfl
@[simp] theorem State.recordTerr_rxCnt (c : Cause) : (s.recordTerr c).rxCnt = s.rxCnt := rfl
@[simp] theorem State.recordTerr_lastDisp (c : Cause) : (s.recordTerr c).lastDisp = s.lastDisp := rfl
@[simp] theorem State.recordTerr_rsp (c : Cause) : (s.recordTerr c).rsp = s.rsp := rfl
@[simp] theorem State.recordTerr_nowMs (c : Cause) : (s.recordTerr c).nowMs = s.nowMs := rfl
@[simp] theorem State.recordTerr_rxSrc (c : Cause) : (s.recordTerr c).rxSrc = s.rxSrc := rfl
@[simp] theorem State.recordTerr_inputs (c : Cause) : (s.recordTerr c).inputs = s.inputs := rfl
@[simp] theorem State.recordTerr_freeIdx (c : Cause) : (s.recordTerr c).freeIdx = s.freeIdx := rfl
@[simp] theorem State.recordTerr_pkt (c : Cause) (p : PktSel) : (s.recordTerr c).pkt p = s.pkt p := by cases p <;> rfl
@[simp] theorem State.recordTerr_slot (c : Cause) (k : Nat) : (s.recordTerr c).slot k = s.slot k := rfl

/-! `State.recordRx` -/

@[simp] theorem State.recordRx_params (tr : Bool) : (s.recordRx tr).params = s.params := rfl
@[simp] theorem State.recordRx_rxp (tr : Bool) : (s.recordRx tr).rxp = s.rxp := rfl
@[simp] theorem State.recordRx_txp (tr : Bool) : (s.recordRx tr).txp = s.txp := rfl
@[simp] theorem State.recordRx_dec (tr : Bool) : (s.recordRx tr).dec = s.dec := rfl
@[simp] theorem State.recordRx_enc (tr : Bool) : (s.recordRx tr).enc = s.enc := rfl
@[simp] theorem State.recordRx_reg (tr : Bool) : (s.recordRx tr).reg = s.reg := rfl
@[simp] theorem State.recordRx_cfg (tr : Bool) : (s.recordRx tr).cfg = s.cfg := rfl
@[simp] theorem State.recordRx_flags (tr : Bool) : (s.recordRx tr).flags = { s.flags with rxReady := true, rxOvf := s.flags.rxOvf || tr } := rfl
@[simp] theorem State.recordRx_terrCnt (tr : Bool) : (s.recordRx tr).terrCnt = s.terrCnt := rfl
@[simp] theorem State.recordRx_rxCnt (tr : Bool) : (s.recordRx tr).rxCnt = satInc s.rxCnt := rfl
@[simp] theorem State.recordRx_lastDisp (tr : Bool) : (s.recordRx tr).lastDisp = s.lastDisp := rfl
@[simp] theorem State.recordRx_rsp (tr : Bool) : (s.recordRx tr).rsp = s.rsp := rfl
@[simp] theorem State.recordRx_nowMs (tr : Bool) : (s.recordRx tr).nowMs = s.nowMs := rfl
@[simp] theorem State.recordRx_rxSrc (tr : Bool) : (s.recordRx tr).rxSrc = s.rxSrc := rfl
@[simp] theorem State.recordRx_inputs (tr : Bool) : (s.recordRx tr).inputs = s.inputs := rfl
@[simp] theorem State.recordRx_freeIdx (tr : Bool) : (s.recordRx tr).freeIdx = s.freeIdx := rfl
@[simp] theorem State.recordRx_pkt (tr : Bool) (p : PktSel) : (s.recordRx tr).pkt p = s.pkt p := by cases p <;> rfl
@[simp] theorem State.recordRx_slot (tr : Bool) (k : Nat) : (s.recordRx tr).slot k = s.slot k := rfl

/-! `State.clearSticky` -/

@[simp] theorem State.clearSticky_params (v : Half) : (s.clearSticky v).params = s.params := rfl
@[simp] theorem State.clearSticky_rxp (v : Half) : (s.clearSticky v).rxp = s.rxp := rfl
@[simp] theorem State.clearSticky_txp (v : Half) : (s.clearSticky v).txp = s.txp := rfl
@[simp] theorem State.clearSticky_dec (v : Half) : (s.clearSticky v).dec = s.dec := rfl
@[simp] theorem State.clearSticky_enc (v : Half) : (s.clearSticky v).enc = s.enc := rfl
@[simp] theorem State.clearSticky_reg (v : Half) : (s.clearSticky v).reg = s.reg := rfl
@[simp] theorem State.clearSticky_cfg (v : Half) : (s.clearSticky v).cfg = s.cfg := rfl
@[simp] theorem State.clearSticky_flags (v : Half) : (s.clearSticky v).flags =
      { rxReady := s.flags.rxReady && !v.getLsbD 0, terr := s.flags.terr && !v.getLsbD 1,
        rxOvf := s.flags.rxOvf && !v.getLsbD 2, lastTerr := if v.getLsbD 1 then .none else s.flags.lastTerr } := rfl
@[simp] theorem State.clearSticky_terrCnt (v : Half) : (s.clearSticky v).terrCnt = if v.getLsbD 15 then 0#16 else s.terrCnt := rfl
@[simp] theorem State.clearSticky_rxCnt (v : Half) : (s.clearSticky v).rxCnt = if v.getLsbD 14 then 0#16 else s.rxCnt := rfl
@[simp] theorem State.clearSticky_lastDisp (v : Half) : (s.clearSticky v).lastDisp = s.lastDisp := rfl
@[simp] theorem State.clearSticky_rsp (v : Half) : (s.clearSticky v).rsp = s.rsp := rfl
@[simp] theorem State.clearSticky_nowMs (v : Half) : (s.clearSticky v).nowMs = s.nowMs := rfl
@[simp] theorem State.clearSticky_rxSrc (v : Half) : (s.clearSticky v).rxSrc = s.rxSrc := rfl
@[simp] theorem State.clearSticky_inputs (v : Half) : (s.clearSticky v).inputs = s.inputs := rfl
@[simp] theorem State.clearSticky_freeIdx (v : Half) : (s.clearSticky v).freeIdx = s.freeIdx := rfl
@[simp] theorem State.clearSticky_pkt (v : Half) (p : PktSel) : (s.clearSticky v).pkt p = s.pkt p := by cases p <;> rfl
@[simp] theorem State.clearSticky_slot (v : Half) (k : Nat) : (s.clearSticky v).slot k = s.slot k := rfl

/-! `State.stopTx` -/

@[simp] theorem State.stopTx_params : (s.stopTx).params = s.params := rfl
@[simp] theorem State.stopTx_rxp : (s.stopTx).rxp = s.rxp := rfl
@[simp] theorem State.stopTx_txp : (s.stopTx).txp = s.txp := rfl
@[simp] theorem State.stopTx_dec : (s.stopTx).dec = s.dec := rfl
@[simp] theorem State.stopTx_enc : (s.stopTx).enc = { s.enc with active := false, cursor := 0#16, total := 0#16, txn := 0#8 } := rfl
@[simp] theorem State.stopTx_reg : (s.stopTx).reg = s.reg := rfl
@[simp] theorem State.stopTx_cfg : (s.stopTx).cfg = s.cfg := rfl
@[simp] theorem State.stopTx_flags : (s.stopTx).flags = s.flags := rfl
@[simp] theorem State.stopTx_terrCnt : (s.stopTx).terrCnt = s.terrCnt := rfl
@[simp] theorem State.stopTx_rxCnt : (s.stopTx).rxCnt = s.rxCnt := rfl
@[simp] theorem State.stopTx_lastDisp : (s.stopTx).lastDisp = s.lastDisp := rfl
@[simp] theorem State.stopTx_rsp : (s.stopTx).rsp = s.rsp := rfl
@[simp] theorem State.stopTx_nowMs : (s.stopTx).nowMs = s.nowMs := rfl
@[simp] theorem State.stopTx_rxSrc : (s.stopTx).rxSrc = s.rxSrc := rfl
@[simp] theorem State.stopTx_inputs : (s.stopTx).inputs = s.inputs := rfl
@[simp] theorem State.stopTx_freeIdx : (s.stopTx).freeIdx = s.freeIdx := rfl
@[simp] theorem State.stopTx_pkt (p : PktSel) : (s.stopTx).pkt p = s.pkt p := by cases p <;> rfl
@[simp] theorem State.stopTx_slot (k : Nat) : (s.stopTx).slot k = s.slot k := rfl

/-! `State.setPkt` -/

@[simp] theorem State.setPkt_params (p : PktSel) (q : Packet) : (s.setPkt p q).params = s.params := by cases p <;> rfl
@[simp] theorem State.setPkt_dec (p : PktSel) (q : Packet) : (s.setPkt p q).dec = s.dec := by cases p <;> rfl
@[simp] theorem State.setPkt_enc (p : PktSel) (q : Packet) : (s.setPkt p q).enc = s.enc := by cases p <;> rfl
@[simp] theorem State.setPkt_reg (p : PktSel) (q : Packet) : (s.setPkt p q).reg = s.reg := by cases p <;> rfl
@[simp] theorem State.setPkt_cfg (p : PktSel) (q : Packet) : (s.setPkt p q).cfg = s.cfg := by cases p <;> rfl
@[simp] theorem State.setPkt_flags (p : PktSel) (q : Packet) : (s.setPkt p q).flags = s.flags := by cases p <;> rfl
@[simp] theorem State.setPkt_terrCnt (p : PktSel) (q : Packet) : (s.setPkt p q).terrCnt = s.terrCnt := by cases p <;> rfl
@[simp] theorem State.setPkt_rxCnt (p : PktSel) (q : Packet) : (s.setPkt p q).rxCnt = s.rxCnt := by cases p <;> rfl
@[simp] theorem State.setPkt_lastDisp (p : PktSel) (q : Packet) : (s.setPkt p q).lastDisp = s.lastDisp := by cases p <;> rfl
@[simp] theorem State.setPkt_rsp (p : PktSel) (q : Packet) : (s.setPkt p q).rsp = s.rsp := by cases p <;> rfl
@[simp] theorem State.setPkt_nowMs (p : PktSel) (q : Packet) : (s.setPkt p q).nowMs = s.nowMs := by cases p <;> rfl
@[simp] theorem State.setPkt_rxSrc (p : PktSel) (q : Packet) : (s.setPkt p q).rxSrc = s.rxSrc := by cases p <;> rfl
@[simp] theorem State.setPkt_inputs (p : PktSel) (q : Packet) : (s.setPkt p q).inputs = s.inputs := by cases p <;> rfl
@[simp] theorem State.setPkt_freeIdx (p : PktSel) (q : Packet) : (s.setPkt p q).freeIdx = s.freeIdx := by cases p <;> rfl
@[simp] theorem State.setPkt_slot (p : PktSel) (q : Packet) (k : Nat) : (s.setPkt p q).slot k = s.slot k := by
  cases p <;> rfl
@[simp] theorem State.setPkt_pkt_self (p : PktSel) (q : Packet) : (s.setPkt p q).pkt p = q := by cases p <;> rfl
@[simp] theorem State.setPkt_pkt_other (p : PktSel) (q : Packet) : (s.setPkt p q).pkt p.other = s.pkt p.other := by
  cases p <;> rfl
@[simp] theorem State.lockRegistry_slot (k : Nat) : s.lockRegistry.slot k = s.slot k := rfl

/-- A slot after `slot[i] <- v`, for a slot the registry has. -/
theorem State.setSlot_slot_self (i : Nat) (v : Slot) (h : i < s.reg.slots.length) : (s.setSlot i v).slot i = v := by
  simp [State.slot, State.setSlot, h]

/-- The other slots keep their values. -/
@[simp] theorem State.setSlot_slot_ne (i j : Nat) (v : Slot) (h : j ≠ i) : (s.setSlot i v).slot j = s.slot j := by
  simp [State.slot, State.setSlot, Ne.symm h]

/-- The number of slots never changes. -/
theorem State.setSlot_slots_length (i : Nat) (v : Slot) : (s.setSlot i v).reg.slots.length = s.reg.slots.length := by
  simp

end

@[simp] theorem PktSel.other_other (p : PktSel) : p.other.other = p := by cases p <;> rfl
@[simp] theorem PktSel.other_ne (p : PktSel) : p.other ≠ p := by cases p <;> decide

end Sys2Proof.Machine
end

