-- ==== Sys2Proof/Laws/Packets.lean ====
section
/-! SUPPORT. The tests the meanings compute with, as the propositions of Safety.lean say them, and what each operation on one
packet or one slot does. -/

namespace Sys2Proof.Machine

@[simp] theorem flagBit_getLsbD_zero (b : Bool) : (flagBit b).getLsbD 0 = b := by cases b <;> decide
@[simp] theorem flagBit_getElem_zero (b : Bool) : (flagBit b)[0] = b := by cases b <;> decide

/-- The complement of a byte as a number: `0xFF - b` (spec/00_scope.md R8). -/
theorem toNat_complement (x : Byte) : (~~~x).toNat = 255 - x.toNat := by simp [BitVec.toNat_not]

/-! ### The tests of a packet -/

theorem ckDirect_iff (s : State) (q : Packet) : ckDirect s.alg q = true ↔ ChecksumHolds s q false := by
  simp [ckDirect, ChecksumHolds, Packet.lastByte, ck, BitVec.toNat_eq]

theorem ckInv_iff (s : State) (q : Packet) : ckInv s.alg q = true ↔ ChecksumHolds s q true := by
  simp [ckInv, ChecksumHolds, Packet.lastByte, ck, BitVec.toNat_eq]

theorem sizeValid_iff (s : State) (q : Packet) : sizeValid s.params q = true ↔ SizeHolds s q := by
  simp [sizeValid, SizeHolds, isLong, isShort]

theorem valid_iff (s : State) (q : Packet) : valid s.params s.alg q = true ↔ PacketValid s q := by
  simp only [valid, PacketValid, ← sizeValid_iff, ← ckDirect_iff s q, ← ckInv_iff, Bool.and_eq_true, Bool.or_eq_true]

/-- The window test of spec/41_pulse_codec.md R101 as a proposition. -/
theorem inWin_iff (s : State) (d n : Duration) : s.inWin d n = true ↔ InWindow s d n := by
  have h : cfgTol s.cfg = s.cfg.toNat % 128 := by simp [cfgTol]
  rw [State.inWin, win, InWindow, h, Bool.and_eq_true, decide_eq_true_iff, decide_eq_true_iff]

theorem startsFrame_iff (s : State) (l : Level) (d : Duration) :
    s.startsFrame l d = true ↔ l = .low ∧ InWindow s d s.params.hdrLow := by
  simp [State.startsFrame, inWin_iff]

/-! ### Matching -/

theorem slotMatches_iff (s : State) (q : Packet) (i : Nat) : s.slotMatches q i = true ↔ SlotMatches s q i := by
  simp only [State.slotMatches, SlotMatches, Slot.Claims]
  cases h : (s.slot i).lensel <;> simp [lenSelHolds, isLong, isShort, and_assoc]

/-- No slot is found exactly when none matches. -/
theorem matchId_eq_none (s : State) (q : Packet) : s.matchId q = none ↔ ∀ i, ¬SlotMatches s q i := by
  rw [State.matchId, List.find?_eq_none]
  constructor
  · intro h i hm
    exact h i (List.mem_range.mpr hm.1) ((slotMatches_iff s q i).mpr hm)
  · intro h i _ hm
    exact h i ((slotMatches_iff s q i).mp hm)

/-- The slot found is the least one that matches. -/
theorem matchId_eq_some (s : State) (q : Packet) (i : Nat) : s.matchId q = some i ↔ FirstMatch s q i := by
  simp only [State.matchId, FirstMatch, ← slotMatches_iff, List.find?_range_eq_some]
  constructor
  · rintro ⟨a, _, c⟩
    exact ⟨a, fun j hj => by simpa using c j hj⟩
  · rintro ⟨a, c⟩
    exact ⟨a, List.mem_range.mpr ((slotMatches_iff s q i).mp a).1, fun j hj => by simpa using c j hj⟩

/-- Locking the registry changes no match. -/
@[simp] theorem matchId_lockRegistry (s : State) (q : Packet) : s.lockRegistry.matchId q = s.matchId q := rfl

/-- A slot that matches has a 4-bit number. -/
theorem SlotMatches.lt_sixteen {s : State} {q : Packet} {i : Nat} (hi : s.Inv) (h : SlotMatches s q i) :
    i < s.params.nslot ∧ i < s.reg.slots.length ∧ i < 16 := by
  have h1 := h.1
  have h2 := hi.nreg_le
  have h3 := hi.params_legal.2.2.1.2
  have h4 := hi.slots_length
  omega

/-- What `lenSelOf` answers. -/
theorem lenSelOf_eq_some (c : BitVec 2) (l : LenSel) : lenSelOf c = some l ↔ l.code = c := by
  cases l <;> revert c <;> decide

theorem lenSelOf_eq_none (c : BitVec 2) : lenSelOf c = none ↔ c = 3#2 := by revert c; decide

/-! ### Slots -/

theorem changed_iff (sl : Slot) : sl.changed = true ↔ SlotChanged sl := by
  simp only [Slot.changed, SlotChanged, SameBytes]
  by_cases h1 : sl.hasCur <;> by_cases h2 : sl.hasPrev <;> by_cases h3 : sl.cur.len = sl.prev.len <;> simp [h1, h2, h3]

theorem transfer_of_hasCur (sl : Slot) (h : sl.hasCur = true) : sl.transfer = { sl with prev := sl.cur, hasPrev := true } := by
  simp [Slot.transfer, h]

theorem transfer_of_not_hasCur (sl : Slot) (h : sl.hasCur = false) : sl.transfer = sl := by simp [Slot.transfer, h]

@[simp] theorem transfer_cur (sl : Slot) : sl.transfer.cur = sl.cur := by unfold Slot.transfer; split <;> rfl
@[simp] theorem transfer_hasCur (sl : Slot) : sl.transfer.hasCur = sl.hasCur := by unfold Slot.transfer; split <;> rfl
@[simp] theorem transfer_val (sl : Slot) : sl.transfer.val = sl.val := by unfold Slot.transfer; split <;> rfl
@[simp] theorem transfer_mask (sl : Slot) : sl.transfer.mask = sl.mask := by unfold Slot.transfer; split <;> rfl
@[simp] theorem transfer_lensel (sl : Slot) : sl.transfer.lensel = sl.lensel := by unfold Slot.transfer; split <;> rfl

/-! ### Packets -/

theorem push_of_lt (cap : Nat) (q : Packet) (v : Byte) (h : q.len.toNat < cap) :
    q.push cap v = { q with data := writeByte q.data q.len.toNat v, len := q.len + 1#8 } := by simp [Packet.push, h]

theorem push_of_ge (cap : Nat) (q : Packet) (v : Byte) (h : cap ≤ q.len.toNat) : q.push cap v = { q with ovf := true } := by
  simp [Packet.push, Nat.not_lt.mpr h]

/-- The length after a push that fits. -/
theorem toNat_len_add_one (q : Packet) (cap : Nat) (hc : cap ≤ 255) (h : q.len.toNat < cap) :
    (q.len + 1#8).toNat = q.len.toNat + 1 := by
  simp [BitVec.toNat_add]; omega

@[simp] theorem mapData_len (f : Byte → Byte) (q : Packet) : (q.mapData f).len = q.len := rfl

/-- Mapping the bytes of a packet twice with an involution gives the packet back. -/
theorem mapData_mapData (f : Byte → Byte) (hf : ∀ x, f (f x) = x) (q : Packet) : (q.mapData f).mapData f = q := by
  simp [Packet.mapData, mapBytes_mapBytes f hf]

/-- Mapping keeps everything but the bytes, and their number. -/
theorem mapData_sameMeta (f : Byte → Byte) (q : Packet) : SameMeta q (q.mapData f) := by
  simp [SameMeta, Packet.mapData]

@[simp] theorem rev8_rev8 (b : Byte) : rev8 (rev8 b) = b := by simp [rev8]

/-- Sealing keeps everything but the bytes, and their number. -/
theorem seal_sameMeta (a : CkAlg) (v : Bool) (q : Packet) : SameMeta q (q.seal a v) := by
  unfold Packet.seal; split <;> simp [SameMeta]

/-- Sealing writes only the last byte, so the checksum of the bytes before it is as before. -/
theorem ck_seal (a : CkAlg) (v : Bool) (q : Packet) : ck a (q.seal a v) = ck a q := by
  unfold Packet.seal; split
  · simp [ck, writeByte, List.take_set_of_le]
  · rfl

/-- The length of a packet that fits its buffer. -/
theorem State.Inv.pkt_ok {s : State} (hi : s.Inv) (p : PktSel) : (s.pkt p).Ok s.params := by
  cases p
  · exact hi.rxp_ok
  · exact hi.txp_ok

/-! ### The state's packets -/

@[simp] theorem setPkt_rx_txp (s : State) (q : Packet) : (s.setPkt .rx q).txp = s.txp := rfl
@[simp] theorem setPkt_tx_rxp (s : State) (q : Packet) : (s.setPkt .tx q).rxp = s.rxp := rfl

/-- Ending a command after setting one packet register changes only that register and the response. -/
theorem onlyPacket_setPkt (s : State) (p : PktSel) (q : Packet) (d : Word) :
    OnlyPacket p s ((s.setPkt p q).withRsp .ok d) d := by
  cases p <;> exact ⟨rfl, rfl⟩

/-- Ending a command after setting one slot changes only that slot and the response. -/
theorem onlySlot_setSlot (s : State) (i : Nat) (v : Slot) (d : Word) : OnlySlot i s ((s.setSlot i v).withRsp .ok d) d :=
  ⟨rfl, by simp, fun j hj => by simp [State.setSlot_slot_ne _ _ _ _ hj]⟩

end Sys2Proof.Machine
end

