-- ==== Sys2Proof/Laws/Outcomes.lean ====
section
/-! SUPPORT. For each operation the meanings share, one lemma that says everything it can do, so that no proof unfolds it. -/

namespace Sys2Proof.Machine

/-! ### Ending a command -/

theorem respond_eq_next (s t : State) (d : Word) : s.respond d = .next t ↔ t = s.withRsp .ok d := by
  simp [State.respond, eq_comm]

theorem raise_eq_next (s t : State) (st : Status) : s.raise st = .next t ↔ t = s.withRsp st 0#32 := by
  simp [State.raise, eq_comm]

theorem endDisp_eq_next (s t : State) (r : Word) :
    s.endDisp r = .next t ↔ t = { s with lastDisp := r, rsp := { status := .ok, data := r } } := by
  simp [State.endDisp, State.respond, State.withRsp, eq_comm]

/-- A byte read answers the byte below `len`, and draws a free byte at and above it. -/
theorem respondByte_eq_next (s t : State) (q : Packet) (idx : Byte) :
    s.respondByte q idx = .next t ↔
      (idx.toNat < q.len.toNat ∧ t = s.withRsp .ok ((readByte q.data idx.toNat).setWidth 32)) ∨
        (q.len.toNat ≤ idx.toNat ∧ t = s.advanceFree.withRsp .ok (s.freeByte.setWidth 32)) := by
  unfold State.respondByte
  by_cases h : idx < q.len
  · have h' : idx.toNat < q.len.toNat := h
    simp only [if_pos h, respond_eq_next, h', true_and, Nat.not_le.mpr h', false_and, or_false]
  · have h' : q.len.toNat ≤ idx.toNat := Nat.not_lt.mp h
    simp only [if_neg h, respond_eq_next, h', true_and, Nat.not_lt.mpr h', false_and, false_or]

/-- A byte read always completes. -/
theorem respondByte_completes (s : State) (q : Packet) (idx : Byte) : ∃ t, s.respondByte q idx = .next t := by
  unfold State.respondByte; split <;> exact ⟨_, rfl⟩

/-- A register number names a register exactly below 8. -/
theorem readReg_eq_none (s : State) (r : BitVec 4) : s.readReg r = none ↔ 8 ≤ r.toNat := by
  have h : ∀ q : BitVec 4, s.readReg q = none ↔ 8 ≤ q.toNat := by
    intro q
    have hq := q.isLt
    unfold State.readReg
    generalize q.toNat = n at *
    interval_cases n <;> simp
  exact h r

/-- One command, then the rest of a list. -/
theorem execAll_cons {i : Instr} {is : List Instr} {s t : State} (h : exec i s = .next t) :
    execAll (i :: is) s = execAll is t := by
  simp [execAll, h]

/-- A list of commands that runs to its end, then another list. -/
theorem execAll_append {is js : List Instr} {s t : State} (h : execAll is s = .next t) :
    execAll (is ++ js) s = execAll js t := by
  induction is generalizing s with
  | nil => simp only [execAll, Host.Outcome.next.injEq] at h; subst h; rfl
  | cons i is ih =>
    simp only [List.cons_append, execAll] at h ⊢
    split at h
    · exact ih h
    · cases h
    · cases h

/-! ### The decoder -/

/-- `abort(c)` leaves the state of Safety.lean, but for the response. -/
theorem abort_state (s : State) (c : Cause) :
    (s.abort c).state.withRsp .ok (pulseReply .idle c 3).data = abortedState s c .idle := rfl

@[simp] theorem abort_ev (s : State) (c : Cause) : (s.abort c).ev = .aborted := rfl
@[simp] theorem abort_cause (s : State) (c : Cause) : (s.abort c).cause = c := rfl
@[simp] theorem abortReeval_ev (s : State) (c : Cause) (l : Level) (d : Duration) : (s.abortReeval c l d).ev = .aborted := rfl
@[simp] theorem abortReeval_cause (s : State) (c : Cause) (l : Level) (d : Duration) : (s.abortReeval c l d).cause = c := rfl

/-- After an abort the record is examined once more as in phase IDLE. -/
theorem abortReeval_state (s : State) (c : Cause) (l : Level) (d : Duration) :
    (s.abortReeval c l d).state = (s.clearFrame.recordTerr c).setPhase .headHigh ∧ l = .low ∧ InWindow s d s.params.hdrLow ∨
      (s.abortReeval c l d).state = s.clearFrame.recordTerr c ∧ ¬(l = .low ∧ InWindow s d s.params.hdrLow) := by
  rw [← startsFrame_iff]
  unfold State.abortReeval
  by_cases h : s.startsFrame l d <;> simp [h]

/-- What `take_bit(b)` can do. -/
theorem takeBit_cases (s : State) (b : Bool) :
    (s.dec.tbits = 0xFFFF#16 ∧ s.takeBit b = s.abort .tooLong) ∨
      (s.dec.tbits ≠ 0xFFFF#16 ∧ ∃ abuf, abuf.length = s.dec.abuf.length ∧
        (s.takeBit b).state =
            { s with dec := { phase := .bitLow, tbits := s.dec.tbits + 1#16, sr := shiftIn s.dec.sr b, abuf := abuf } } ∧
        (s.takeBit b).ev = .accepted ∧ (s.takeBit b).cause = .none ∧
        ∀ i < s.dec.abuf.length, readByte abuf i =
          if s.dec.tbits.toNat + 1 = 8 * (i + 1) ∧ i < s.params.cap then shiftIn s.dec.sr b else readByte s.dec.abuf i) := by
  unfold State.takeBit
  by_cases h : s.dec.tbits = 0xFFFF#16
  · simp [h]
  · refine .inr ⟨h, _, ?_, by rw [if_neg h], by rw [if_neg h], by rw [if_neg h], ?_⟩
    · split <;> simp
    · intro i hi
      split
      · rename_i hc
        by_cases hi' : i = (s.dec.tbits.toNat + 1) / 8 - 1
        · rw [readByte_writeByte _ _ _ _ (by omega), if_pos hi', if_pos (by omega)]
        · rw [readByte_writeByte_ne _ _ _ _ hi', if_neg (by omega)]
      · rw [if_neg (by omega)]

/-- The shift register after a bit as a number (spec/41_pulse_codec.md R108). -/
theorem toNat_shiftIn (x : Byte) (b : Bool) : (shiftIn x b).toNat = (x.toNat * 2 + b.toNat) % 256 := by
  revert x; cases b <;> decide

/-- What `complete()` can do. -/
theorem complete_cases (s : State) :
    (s.dec.tbits = 0#16 ∧ s.complete = s.abort .empty) ∨
      (s.dec.tbits ≠ 0#16 ∧ s.dec.tbits.toNat % 8 ≠ 0 ∧ s.complete = s.abort .partialByte) ∨
      (s.dec.tbits ≠ 0#16 ∧ s.dec.tbits.toNat % 8 = 0 ∧
        s.complete =
          { state :=
              ({ s with rxp := s.delivered (s.dec.tbits.toNat / 8) }.recordRx
                (decide (s.params.cap < s.dec.tbits.toNat / 8))).clearFrame
            ev := .complete
            cause := .none }) := by
  unfold State.complete
  by_cases h : s.dec.tbits = 0#16
  · exact .inl ⟨h, by rw [if_pos h]⟩
  · by_cases h' : s.dec.tbits.toNat % 8 ≠ 0
    · exact .inr (.inl ⟨h, h', by rw [if_neg h, if_pos h']⟩)
    · exact .inr (.inr ⟨h, by omega, by rw [if_neg h, if_neg h']⟩)

/-- Everything one pulse record can do: it is ignored, the phase advances, a bit is taken, a frame starts its bits, completes,
or is aborted, the record being examined again or not. -/
theorem pulse_cases (s : State) (l : Level) (d : Duration) :
    (s.dec.phase = .idle ∧ s.pulse l d = { state := s, ev := .ignored, cause := .none }) ∨
      (s.dec.phase = .idle ∧ s.pulse l d = s.advance .headHigh) ∨
      (s.dec.phase = .headHigh ∧
        s.pulse l d =
          { state := { s with dec := { s.dec with phase := .bitLow, tbits := 0#16, sr := 0#8 } }
            ev := .accepted
            cause := .none }) ∨
      (s.dec.phase = .bitLow ∧ s.pulse l d = s.advance .bitHigh) ∨
      (s.dec.phase = .bitHigh ∧ ∃ b, s.pulse l d = s.takeBit b) ∨
      ((s.dec.phase = .bitLow ∨ s.dec.phase = .bitHigh) ∧ s.pulse l d = s.complete) ∨
      (s.dec.phase ≠ .idle ∧ s.pulse l d = s.abort .glitch) ∨
      (s.dec.phase ≠ .idle ∧ ∃ c, (c = .level ∨ c = .window) ∧ s.pulse l d = s.abortReeval c l d) := by
  by_cases hg : d < s.params.thresh
  · simp only [State.pulse, if_pos hg, State.pulseGlitch]
    cases hp : s.dec.phase <;> simp
  · simp only [State.pulse, if_neg hg]
    cases hp : s.dec.phase
    · by_cases h : s.startsFrame l d <;> simp [State.pulseIdle, h]
    · cases l
      · simp [State.pulseHeadHigh]
      · by_cases h : s.inWin d s.params.hdrHigh <;> simp [State.pulseHeadHigh, h]
    · cases l
      · by_cases h : s.inWin d s.params.bitLow <;> simp [State.pulseBitLow, h]
      · by_cases h : s.params.endGap < d <;> simp [State.pulseBitLow, h]
    · cases l
      · simp [State.pulseBitHigh]
      · by_cases h : s.inWin d s.params.zeroHigh
        · simp only [State.pulseBitHigh, h, if_true]; simp
        · by_cases h1 : s.inWin d s.params.oneHigh
          · simp only [State.pulseBitHigh, h, h1, if_true]; simp
          · by_cases h2 : s.params.endGap < d <;> simp [State.pulseBitHigh, h, h1, h2]

/-! ### The encoder -/

/-- A bit of the byte sequence does not depend on bytes after it. -/
theorem wireBit_congr (a b : List Byte) (n j : Nat) (h : ∀ i < n, readByte a i = readByte b i) (hj : j < 8 * n) :
    wireBit a j = wireBit b j := by
  unfold wireBit; rw [h _ (by omega)]

/-- A record does not depend on bytes at and above `n`. -/
theorem recAt_congr (p : Params) (n : Nat) (a b : List Byte) (k : Nat) (h : ∀ i < n, readByte a i = readByte b i) :
    recAt p n a k = recAt p n b k := by
  unfold recAt
  by_cases h2 : k < 2 + 16 * n
  · by_cases h0 : k = 0
    · simp [h0]
    · by_cases h1 : k = 1
      · simp [h1]
      · rw [wireBit_congr a b n ((k - 2) / 2) h (by omega)]
  · simp [h2]

@[simp] theorem length_records (p : Params) (b : List Byte) : (records p b).length = recCount b.length := by simp [records]

/-- The `k`-th record of the list. -/
theorem getElem?_records (p : Params) (b : List Byte) (k : Nat) (h : k < recCount b.length) :
    (records p b)[k]? = some (recAt p b.length b k) := by
  simp [records, h]

end Sys2Proof.Machine
end

