-- ==== Sys2Proof/Laws/PerInstr.lean ====
section
/-! SUPPORT. Per command: the word the encoder writes fits its row of spec/opcode_table.json. -/

namespace Sys2Proof.Laws

/-- The `match` and `mask` of a command's row of spec/opcode_table.json. -/
def row : Instr → Word × Word
  | .nop => (0x00000000#32, 0xFFFFFFFF#32)
  | .pulse _ _ => (0x10000000#32, 0xF0000000#32)
  | .pnew _ _ => (0x20000000#32, 0xFF7CFFFF#32)
  | .push _ _ => (0x21000000#32, 0xFF7FFF00#32)
  | .wrb _ _ _ => (0x22000000#32, 0xFF7F0000#32)
  | .rdb _ _ => (0x23000000#32, 0xFF7F00FF#32)
  | .pinfo _ => (0x24000000#32, 0xFF7FFFFF#32)
  | .ptime _ => (0x25000000#32, 0xFF7FFFFF#32)
  | .page _ => (0x26000000#32, 0xFF7FFFFF#32)
  | .inv _ => (0x27000000#32, 0xFF7FFFFF#32)
  | .brev _ => (0x28000000#32, 0xFF7FFFFF#32)
  | .ckgen _ _ => (0x29000000#32, 0xFF7FFFFE#32)
  | .ckcalc _ => (0x2A000000#32, 0xFF7FFFFF#32)
  | .pcopy _ => (0x2B000000#32, 0xFF7FFFFF#32)
  | .reg _ _ _ => (0x30000000#32, 0xFFFC0000#32)
  | .disp _ => (0x31000000#32, 0xFFF7FFFF#32)
  | .xfer _ => (0x32000000#32, 0xFF0FFFFF#32)
  | .sinfo _ => (0x33000000#32, 0xFF0FFFFF#32)
  | .srdb _ _ _ => (0x34000000#32, 0xFF0700FF#32)
  | .sload _ _ => (0x35000000#32, 0xFF07FFFF#32)
  | .enc _ => (0x40000000#32, 0xFF7FFFFF#32)
  | .txpop => (0x41000000#32, 0xFFFFFFFF#32)
  | .txabort => (0x42000000#32, 0xFFFFFFFF#32)
  | .rdreg _ => (0x50000000#32, 0xFFF0FFFF#32)
  | .wrreg _ _ => (0x51000000#32, 0xFFF00000#32)
  | .clrst _ => (0x52000000#32, 0xFFFF3FF8#32)

/-- A field placed where the mask has no bit is masked away. -/
theorem fld_and_mask {n : Nat} (x : BitVec n) (pos : Nat) (m : Word)
    (h : ∀ i < n, pos + i < 32 → m.getLsbD (pos + i) = false) : fld x pos &&& m = 0#32 := by
  apply BitVec.eq_of_getLsbD_eq
  intro i hi
  by_cases hp : pos ≤ i
  · by_cases hn : i - pos < n
    · have hm := h (i - pos) hn (by omega)
      rw [Nat.add_sub_cancel' hp] at hm
      simp only [BitVec.getLsbD_and, hm, Bool.and_false, BitVec.getLsbD_zero]
    · have hx : x.getLsbD (i - pos) = false := BitVec.getLsbD_of_ge _ _ (by omega)
      simp only [BitVec.getLsbD_and, getLsbD_fld, hx, Bool.and_false, Bool.false_and, BitVec.getLsbD_zero]
  · simp only [BitVec.getLsbD_and, getLsbD_fld, hp, decide_false, Bool.and_false, Bool.false_and, BitVec.getLsbD_zero]

/-- Masking distributes over the parts of a word. -/
theorem or_and (a b m : Word) : (a ||| b) &&& m = (a &&& m) ||| (b &&& m) := by
  apply BitVec.eq_of_getLsbD_eq
  intro i _
  simp only [BitVec.getLsbD_and, BitVec.getLsbD_or, Bool.and_or_distrib_right]

namespace EncodeFitsRow

/-- A well-formed command's word has its row's fixed bits. -/
def Statement (i : Instr) : Prop := i.wellFormed = true → encode i &&& (row i).2 = (row i).1

theorem nop : Statement .nop := fun _ => rfl

theorem pulse (l : Level) (d : Duration) : Statement (.pulse l d) := fun _ => by
  cases l <;> simp only [encode, formatP, row, or_and] <;> rw [fld_and_mask d 0 _ (by decide)] <;> rfl

theorem pnew (p : PktSel) (src : Source) : Statement (.pnew p src) := fun _ => by cases p <;> cases src <;> rfl

theorem push (p : PktSel) (val : Byte) : Statement (.push p val) := fun _ => by
  cases p <;> simp only [encode, formatK, row, or_and] <;> rw [fld_and_mask val 0 _ (by decide)] <;> rfl

theorem wrb (p : PktSel) (idx val : Byte) : Statement (.wrb p idx val) := fun _ => by
  cases p <;> simp only [encode, formatK, row, or_and] <;>
    rw [fld_and_mask val 0 _ (by decide), fld_and_mask idx 8 _ (by decide)] <;> rfl

theorem rdb (p : PktSel) (idx : Byte) : Statement (.rdb p idx) := fun _ => by
  cases p <;> simp only [encode, formatK, row, or_and] <;> rw [fld_and_mask idx 8 _ (by decide)] <;> rfl

theorem pinfo (p : PktSel) : Statement (.pinfo p) := fun _ => by cases p <;> rfl
theorem ptime (p : PktSel) : Statement (.ptime p) := fun _ => by cases p <;> rfl
theorem page (p : PktSel) : Statement (.page p) := fun _ => by cases p <;> rfl
theorem inv (p : PktSel) : Statement (.inv p) := fun _ => by cases p <;> rfl
theorem brev (p : PktSel) : Statement (.brev p) := fun _ => by cases p <;> rfl
theorem ckgen (p : PktSel) (inverted : Bool) : Statement (.ckgen p inverted) := fun _ => by
  cases p <;> cases inverted <;> rfl
theorem ckcalc (p : PktSel) : Statement (.ckcalc p) := fun _ => by cases p <;> rfl
theorem pcopy (p : PktSel) : Statement (.pcopy p) := fun _ => by cases p <;> rfl

theorem reg (val mask : Byte) (lensel : BitVec 2) : Statement (.reg val mask lensel) := fun _ => by
  simp only [encode, formatD, row, or_and]
  rw [fld_and_mask val 0 _ (by decide), fld_and_mask mask 8 _ (by decide), fld_and_mask lensel 16 _ (by decide)]
  rfl

theorem disp (p : PktSel) : Statement (.disp p) := fun _ => by cases p <;> rfl

theorem xfer (slot : BitVec 4) : Statement (.xfer slot) := fun _ => by
  simp only [encode, formatD, row, or_and]
  rw [fld_and_mask slot 20 _ (by decide)]
  rfl

theorem sinfo (slot : BitVec 4) : Statement (.sinfo slot) := fun _ => by
  simp only [encode, formatD, row, or_and]
  rw [fld_and_mask slot 20 _ (by decide)]
  rfl

theorem srdb (slot : BitVec 4) (which : Which) (idx : Byte) : Statement (.srdb slot which idx) := fun _ => by
  cases which <;> simp only [encode, formatD, row, or_and] <;>
    rw [fld_and_mask slot 20 _ (by decide), fld_and_mask idx 8 _ (by decide)] <;> rfl

theorem sload (slot : BitVec 4) (p : PktSel) : Statement (.sload slot p) := fun _ => by
  cases p <;> simp only [encode, formatD, row, or_and] <;> rw [fld_and_mask slot 20 _ (by decide)] <;> rfl

theorem enc (p : PktSel) : Statement (.enc p) := fun _ => by cases p <;> rfl
theorem txpop : Statement .txpop := fun _ => rfl
theorem txabort : Statement .txabort := fun _ => rfl

theorem rdreg (r : BitVec 4) : Statement (.rdreg r) := fun _ => by
  simp only [encode, formatR, row, or_and]
  rw [fld_and_mask r 16 _ (by decide)]
  rfl

theorem wrreg (r : BitVec 4) (v : Half) : Statement (.wrreg r v) := fun _ => by
  simp only [encode, formatR, row, or_and]
  rw [fld_and_mask r 16 _ (by decide), fld_and_mask v 0 _ (by decide)]
  rfl

theorem clrst (v : Half) : Statement (.clrst v) := fun h => by
  have hv : v.extractLsb' 3 11 = 0#11 := by simpa [Instr.wellFormed, clrstMaskOk] using h
  have hb : ∀ i < 11, v.getLsbD (3 + i) = false := fun i hi => by
    have := congrArg (fun x => x.getLsbD i) hv
    simpa only [BitVec.getLsbD_extractLsb', hi, decide_true, Bool.true_and, BitVec.getLsbD_zero] using this
  have hz : fld v 0 &&& 0xFFFF3FF8#32 = 0#32 := by
    apply BitVec.eq_of_getLsbD_eq
    intro i hi
    by_cases h3 : 3 ≤ i ∧ i < 14
    · have := hb (i - 3) (by omega)
      rw [Nat.add_sub_cancel' h3.1] at this
      simp only [BitVec.getLsbD_and, getLsbD_fld, Nat.sub_zero, this, Bool.and_false, Bool.false_and, BitVec.getLsbD_zero]
    · by_cases h16 : i < 16
      · have hm : (0xFFFF3FF8#32).getLsbD i = false := by
          have hlt : i < 3 ∨ i = 14 ∨ i = 15 := by omega
          rcases hlt with h | h | h
          · interval_cases i <;> rfl
          · subst h; rfl
          · subst h; rfl
        simp only [BitVec.getLsbD_and, hm, Bool.and_false, BitVec.getLsbD_zero]
      · have hx : v.getLsbD i = false := BitVec.getLsbD_of_ge _ _ (by omega)
        simp only [BitVec.getLsbD_and, getLsbD_fld, Nat.sub_zero, hx, Bool.and_false, Bool.false_and, BitVec.getLsbD_zero]
  simp only [encode, formatR, row, or_and, hz]
  rfl

end EncodeFitsRow

end Sys2Proof.Laws
end

