-- ==== Sys2Proof/Machine/Assembler.lean ====
section
/-! DEFINITION. The assembler of spec/30_encoding.md R92 and R93: one line of text to the commands it stands for. -/

namespace Sys2Proof.Machine

/-- A space or a tab between words. -/
def isBlank (c : Char) : Bool := c == ' ' || c == '\t'

/-- The text without blanks at its two ends. -/
def trimBlanks (l : List Char) : List Char := ((l.dropWhile isBlank).reverse.dropWhile isBlank).reverse

/-- The text between commas. -/
def splitCommas : List Char → List (List Char)
  | [] => [[]]
  | c :: cs =>
    if c = ',' then [] :: splitCommas cs
    else
      match splitCommas cs with
      | [] => [[c]]
      | w :: ws => (c :: w) :: ws

/-- The comma-separated operands of the text after the mnemonic. -/
def operandsOf (l : List Char) : List String :=
  if trimBlanks l = [] then [] else (splitCommas l).map fun w => String.ofList (trimBlanks w)

/-- The value of a digit in base 16. -/
def digitValue (c : Char) : Option Nat :=
  if '0' ≤ c ∧ c ≤ '9' then some (c.toNat - 48)
  else if 'a' ≤ c ∧ c ≤ 'f' then some (c.toNat - 87)
  else if 'A' ≤ c ∧ c ≤ 'F' then some (c.toNat - 55)
  else none

/-- The digits of a number in a base, the more significant ones already read in `acc`. -/
def digitsValue (base : Nat) : List Char → Nat → Option Nat
  | [], acc => some acc
  | c :: cs, acc =>
    match digitValue c with
    | none => none
    | some d => if d < base then digitsValue base cs (acc * base + d) else none

/-- A number, decimal or `0x` hex (R92). -/
def numberOf (t : String) : Option Nat :=
  match t.toList with
  | [] => none
  | '0' :: 'x' :: [] => none
  | '0' :: 'x' :: d :: ds => digitsValue 16 (d :: ds) 0
  | d :: ds => digitsValue 10 (d :: ds) 0

/-- A number that fits an unsigned field of `n` bits (R90, R92). -/
def fieldOf (n : Nat) (t : String) : Option (BitVec n) :=
  (numberOf t).bind fun k => if k < 2 ^ n then some (BitVec.ofNat n k) else none

/-- `p` is `RX` or `TX` (R92). -/
def pktOfText (t : String) : Option PktSel := if t = "RX" then some .rx else if t = "TX" then some .tx else none

/-- `L` is 0 or 1, or `LO` or `HI` (R92). -/
def levelOfText (t : String) : Option Level :=
  if t = "LO" then some .low else if t = "HI" then some .high else (fieldOf 1 t).map levelOf

/-- `src` is `UNK`, `HEATER`, `CTRL` or `LOCAL` (R92). -/
def sourceOfText (t : String) : Option Source :=
  if t = "UNK" then some .unknown
  else if t = "HEATER" then some .heater
  else if t = "CTRL" then some .controller
  else if t = "LOCAL" then some .localOrigin
  else none

/-- `lensel` is `ANY`, `LONG` or `SHORT` (R92); its field value as a number stands for the out-of-range 3 too (log entry
12). -/
def lenselOfText (t : String) : Option (BitVec 2) :=
  if t = "ANY" then some 0#2 else if t = "LONG" then some 1#2 else if t = "SHORT" then some 2#2 else fieldOf 2 t

/-- `which` is `CUR` or `PREV` (R92). -/
def whichOfText (t : String) : Option Which := if t = "CUR" then some .cur else if t = "PREV" then some .prev else none

/-- `r` is a register name or a number (R92). -/
def regOfText (t : String) : Option (BitVec 4) :=
  if t = "CFG" then some 0#4
  else if t = "STATUS" then some 1#4
  else if t = "TERR_CNT" then some 2#4
  else if t = "RXCNT" then some 3#4
  else if t = "DECBITS" then some 4#4
  else if t = "LASTDISP" then some 5#4
  else if t = "TXCUR" then some 6#4
  else if t = "NOW" then some 7#4
  else fieldOf 4 t

/-- The command a mnemonic and its operands stand for (R92). -/
def commandOf (m : String) (ops : List String) : Option Instr :=
  match m, ops with
  | "NOP", [] => some .nop
  | "PULSE", [l, d] => (levelOfText l).bind fun l => (fieldOf 27 d).map fun d => .pulse l d
  | "PNEW", [p, src] => (pktOfText p).bind fun p => (sourceOfText src).map fun c => .pnew p c
  | "PUSH", [p, val] => (pktOfText p).bind fun p => (fieldOf 8 val).map fun v => .push p v
  | "WRB", [p, idx, val] =>
    (pktOfText p).bind fun p => (fieldOf 8 idx).bind fun x => (fieldOf 8 val).map fun v => .wrb p x v
  | "RDB", [p, idx] => (pktOfText p).bind fun p => (fieldOf 8 idx).map fun x => .rdb p x
  | "PINFO", [p] => (pktOfText p).map fun p => .pinfo p
  | "PTIME", [p] => (pktOfText p).map fun p => .ptime p
  | "PAGE", [p] => (pktOfText p).map fun p => .page p
  | "INV", [p] => (pktOfText p).map fun p => .inv p
  | "BREV", [p] => (pktOfText p).map fun p => .brev p
  | "CKGEN", [p] => (pktOfText p).map fun p => .ckgen p false
  | "CKGEN", [p, "INV"] => (pktOfText p).map fun p => .ckgen p true
  | "CKCALC", [p] => (pktOfText p).map fun p => .ckcalc p
  | "PCOPY", [p] => (pktOfText p).map fun p => .pcopy p
  | "REG", [val, mask, lensel] =>
    (fieldOf 8 val).bind fun v => (fieldOf 8 mask).bind fun k => (lenselOfText lensel).map fun c => .reg v k c
  | "DISP", [p] => (pktOfText p).map fun p => .disp p
  | "XFER", [slot] => (fieldOf 4 slot).map fun k => .xfer k
  | "SINFO", [slot] => (fieldOf 4 slot).map fun k => .sinfo k
  | "SRDB", [slot, which, idx] =>
    (fieldOf 4 slot).bind fun k => (whichOfText which).bind fun w => (fieldOf 8 idx).map fun x => .srdb k w x
  | "SLOAD", [slot, p] => (fieldOf 4 slot).bind fun k => (pktOfText p).map fun p => .sload k p
  | "ENC", [p] => (pktOfText p).map fun p => .enc p
  | "TXPOP", [] => some .txpop
  | "TXABORT", [] => some .txabort
  | "RDREG", [r] => (regOfText r).map fun r => .rdreg r
  | "WRREG", [r, v] => (regOfText r).bind fun r => (fieldOf 16 v).map fun v => .wrreg r v
  | "CLRST", [v] => (fieldOf 16 v).map fun v => .clrst v
  | _, _ => none

/-- A list of byte operands. -/
def bytesOf : List String → Option (List Byte)
  | [] => some []
  | t :: ts => (fieldOf 8 t).bind fun x => (bytesOf ts).map fun xs => x :: xs

/-- The commands a pseudo-instruction expands to (R93). -/
def pseudoOf (p : Params) (m : String) (ops : List String) : Option (List Instr) :=
  match m, ops with
  | "HDR", [] => some (asmHdr p)
  | "BIT0", [] => some (asmBit p false)
  | "BIT1", [] => some (asmBit p true)
  | "BYTE", [b] => (fieldOf 8 b).map (asmByte p)
  | "TRAIL", [] => some (asmTrail p)
  | "GAP", [d] => (fieldOf 27 d).map asmGap
  | "WIREFRAME", bs => (bytesOf bs).map (asmWireframe p)
  | "LOADPKT", q :: src :: bs =>
    (pktOfText q).bind fun q => (sourceOfText src).bind fun c => (bytesOf bs).map (asmLoadpkt q c)
  | "SEAL", [q] => (pktOfText q).map asmSeal
  | _, _ => none

/-- The commands of a line: a command, a pseudo-instruction, or none for a blank or comment line; a line of any other form is
no line of the syntax (R92, R93). -/
def assembleLine (p : Params) (line : String) : Option (List Instr) :=
  let t := trimBlanks (line.toList.takeWhile fun c => c != ';')
  let m := String.ofList (t.takeWhile fun c => !isBlank c)
  let ops := operandsOf (t.dropWhile fun c => !isBlank c)
  if t = [] then some []
  else
    match commandOf m ops with
    | some i => some [i]
    | none => pseudoOf p m ops

/-- The command words of a line. -/
def assembleWords (p : Params) (line : String) : Option (List Word) :=
  (assembleLine p line).map fun is => is.map encode

end Sys2Proof.Machine
end

