-- ==== Sys2Proof/Tests/Slice0.lean ====
section
/-! SUPPORT. Tests of the model. Every expected value comes from the spec: the words of spec/95_test_vectors.md and
spec/30_encoding.md, and the vectors V1 to V89. -/

namespace Sys2Proof.Tests

open Sys2Proof.Machine

/-! ### Well-formedness -/

/-- CLRST with `v[13:3]` not 0 (V87: `CLRST 0x0008` is illegal). -/
theorem test_wf_refuses_clrst_bit3 : (Instr.clrst 0x0008#16).wellFormed = false := by decide

/-- The five clear bits together are well formed (R213). -/
theorem test_wf_accepts_clrst_all : (Instr.clrst 0xC007#16).wellFormed = true := by decide

/-! ### Decoding: words written out in the spec -/

theorem test_decode_nop : decode 0x00000000#32 = .ok .nop := by decide
theorem test_decode_pulse : decode 0x18000BB8#32 = .ok (.pulse .high 3000#27) := by decide
theorem test_decode_pnew : decode 0x20830000#32 = .ok (.pnew .tx .localOrigin) := by decide
theorem test_decode_push : decode 0x21800012#32 = .ok (.push .tx 0x12#8) := by decide
theorem test_decode_wrb : decode 0x22800155#32 = .ok (.wrb .tx 1#8 0x55#8) := by decide
theorem test_decode_rdb : decode 0x23800100#32 = .ok (.rdb .tx 1#8) := by decide
theorem test_decode_pinfo : decode 0x24800000#32 = .ok (.pinfo .tx) := by decide
theorem test_decode_ptime : decode 0x25800000#32 = .ok (.ptime .tx) := by decide
theorem test_decode_page : decode 0x26000000#32 = .ok (.page .rx) := by decide
theorem test_decode_inv : decode 0x27800000#32 = .ok (.inv .tx) := by decide
theorem test_decode_brev : decode 0x28800000#32 = .ok (.brev .tx) := by decide
theorem test_decode_ckgen : decode 0x29800001#32 = .ok (.ckgen .tx true) := by decide
theorem test_decode_ckcalc : decode 0x2A000000#32 = .ok (.ckcalc .rx) := by decide
theorem test_decode_pcopy : decode 0x2B800000#32 = .ok (.pcopy .tx) := by decide
theorem test_decode_reg : decode 0x3001F020#32 = .ok (.reg 0x20#8 0xF0#8 1#2) := by decide
theorem test_decode_disp : decode 0x31080000#32 = .ok (.disp .tx) := by decide
theorem test_decode_xfer : decode 0x32100000#32 = .ok (.xfer 1#4) := by decide
theorem test_decode_sinfo : decode 0x33400000#32 = .ok (.sinfo 4#4) := by decide
theorem test_decode_srdb : decode 0x34080100#32 = .ok (.srdb 0#4 .prev 1#8) := by decide
theorem test_decode_sload : decode 0x35080000#32 = .ok (.sload 0#4 .tx) := by decide
theorem test_decode_enc : decode 0x40800000#32 = .ok (.enc .tx) := by decide
theorem test_decode_txpop : decode 0x41000000#32 = .ok .txpop := by decide
theorem test_decode_txabort : decode 0x42000000#32 = .ok .txabort := by decide
theorem test_decode_rdreg : decode 0x50050000#32 = .ok (.rdreg 5#4) := by decide
theorem test_decode_wrreg : decode 0x51003119#32 = .ok (.wrreg 0#4 0x3119#16) := by decide
theorem test_decode_clrst : decode 0x52008002#32 = .ok (.clrst 0x8002#16) := by decide

/-- V82, V48, V66, V69, V81, V89: words the spec calls illegal. -/
theorem test_decode_refuses :
    [0x00000001#32, 0x60000000#32, 0xF0000000#32, 0x43000000#32, 0x41800000#32, 0x40000001#32, 0x42000010#32, 0x29800002#32,
      0x2C000000#32, 0x20040000#32, 0x21010000#32, 0x23010000#32, 0x24000001#32, 0x20000100#32, 0x36000000#32, 0x30040000#32,
      0x31100000#32, 0x32080000#32, 0x33000001#32, 0x31000100#32, 0x30100000#32, 0x53000000#32, 0x50100000#32, 0x50000001#32,
      0x52000008#32, 0x52010000#32].all (fun w => (decode w).toOption.isNone) = true := by decide

/-- The table's numbering of a row's bits: the PNEW row with `p` = 1 and `src` = 2. -/
theorem test_table_word : decodeTableWord 32 0x20820000 = some (.pnew .tx .controller) := by decide

/-! ### One command on a small state -/

/-- The status and data of a result. -/
def reply : Result → Option (Status × Word)
  | .next t => some (t.rsp.status, t.rsp.data)
  | .fault _ => none
  | .refused _ => none

/-- The state a result leads to, or the reset state. -/
def after : Result → State
  | .next t => t
  | .fault _ => State.reset
  | .refused _ => State.reset

/-- A packet of the reference capacity 8 with the given bytes. -/
def packetOf (src : Source) (b : List Byte) : Packet :=
  { data := b ++ List.replicate (8 - b.length) 0#8, len := BitVec.ofNat 8 b.length, time := 0#32, src := src, ovf := false }

/-- The reset state with `TXP` holding the given bytes. -/
def withTx (src : Source) (b : List Byte) : State := { State.reset with txp := packetOf src b }

/-- The reset state with the decoder in a phase, `n` bits taken. -/
def inPhase (ph : Phase) (n : Half) (sr : Byte) : State :=
  { State.reset with dec := { State.reset.dec with phase := ph, tbits := n, sr := sr } }

/-- One slot `0x12/0xFF/ANY`, with the packets given. -/
def withSlot (cur prev : Option (List Byte)) : State :=
  { State.reset with
    reg :=
      { nreg := 1#5
        lock := cur.isSome
        slots :=
          { val := 0x12#8
            mask := 0xFF#8
            lensel := .any
            hasCur := cur.isSome
            hasPrev := prev.isSome
            cur := packetOf .heater (cur.getD [])
            prev := packetOf .heater (prev.getD []) } :: List.replicate 3 (Slot.reset 8) } }

/-- V82. -/
theorem test_nop : reply (exec .nop State.reset) = some (.ok, 0#32) := by decide

/-- V2. -/
theorem test_pulse_heading_low : reply (exec (.pulse .low 6300#27) State.reset) = some (.ok, 0x00002001#32) := by decide

/-- V22: a heading low in BIT_LOW restarts the frame. -/
theorem test_pulse_restart :
    reply (exec (.pulse .low 9000#27) (inPhase .bitLow 0#16 0#8)) = some (.ok, 0x00002033#32) := by decide

/-- V31: at TOL 50 the zero window is tested first. -/
theorem test_pulse_zero_first :
    (after (exec (.pulse .high 1500#27) { inPhase .bitHigh 0#16 0#8 with cfg := 0x0032#16 })).dec.sr = 0#8 := by decide

/-- V40: a 65536th bit. -/
theorem test_pulse_too_long :
    reply (exec (.pulse .high 3000#27) (inPhase .bitHigh 0xFFFF#16 0xFF#8)) = some (.ok, 0x00000063#32) := by decide

/-- V150 example: `PNEW TX, LOCAL` at `now = 1000`. -/
theorem test_pnew :
    (after (exec (.pnew .tx .localOrigin) { withTx .unknown [1#8] with nowMs := 1000#32 })).txp =
      { packetOf .localOrigin [1#8] with len := 0#8, time := 1000#32 } := by decide

/-- V61: the ninth byte is dropped and sets `ovf`. -/
theorem test_push_full :
    (after (exec (.push .tx 9#8) (withTx .unknown (List.replicate 8 7#8)))).txp =
      { packetOf .unknown (List.replicate 8 7#8) with ovf := true } := by decide

/-- V62. -/
theorem test_wrb_rdb :
    reply (exec (.rdb .tx 1#8) (after (exec (.wrb .tx 1#8 0x55#8) (withTx .unknown [0x12#8, 0x34#8, 0x46#8])))) =
      some (.ok, 0x55#32) := by decide

/-- V62: an index at CAP. -/
theorem test_wrb_range : reply (exec (.wrb .tx 8#8 1#8) (withTx .unknown [0x12#8])) = some (.range, 0#32) := by decide

/-- V52. -/
theorem test_pinfo_inverted :
    reply (exec (.pinfo .tx) (withTx .controller [0x12#8, 0x34#8, 0xB9#8])) = some (.ok, 0x12023603#32) := by decide

/-- V55. -/
theorem test_pinfo_long :
    reply (exec (.pinfo .tx) (withTx .controller [0x12#8, 0x34#8, 0x56#8, 0x9C#8])) = some (.ok, 0x12022D04#32) := by decide

/-- V68. -/
theorem test_ptime :
    reply (exec (.ptime .rx) { State.reset with rxp := { State.reset.rxp with time := 1000#32 } }) =
      some (.ok, 1000#32) := by decide

/-- V68: a `now` below the packet's time wraps. -/
theorem test_page_wraps :
    reply (exec (.page .rx) { State.reset with rxp := { State.reset.rxp with time := 1000#32 }, nowMs := 999#32 }) =
      some (.ok, 0xFFFFFFFF#32) := by decide

/-- V63. -/
theorem test_inv :
    (after (exec (.inv .tx) (withTx .unknown [0x12#8, 0x34#8, 0x46#8]))).txp =
      packetOf .unknown [0xED#8, 0xCB#8, 0xB9#8] := by decide

/-- V64. -/
theorem test_brev :
    (after (exec (.brev .tx) (withTx .unknown [0x12#8, 0x34#8, 0x46#8]))).txp =
      packetOf .unknown [0x48#8, 0x2C#8, 0x62#8] := by decide

/-- V65. -/
theorem test_ckgen_inv :
    (after (exec (.ckgen .tx true) (withTx .unknown [0x12#8, 0x34#8, 0x00#8]))).txp =
      packetOf .unknown [0x12#8, 0x34#8, 0xB9#8] := by decide

/-- V50 under XOR8. -/
theorem test_ckcalc_xor :
    reply (exec (.ckcalc .tx) { withTx .unknown [0x12#8, 0x34#8, 0x99#8] with cfg := 0x011E#16 }) =
      some (.ok, 0x26#32) := by decide

/-- V51a under SUM8_EAC. -/
theorem test_ckcalc_eac :
    reply (exec (.ckcalc .tx) { withTx .unknown [0xF0#8, 0x20#8, 0x30#8, 0x00#8] with cfg := 0x021E#16 }) =
      some (.ok, 0x41#32) := by decide

/-- V68: `PCOPY RX` makes RXP equal TXP. -/
theorem test_pcopy :
    (after (exec (.pcopy .rx) (withTx .localOrigin [1#8, 2#8]))).rxp = packetOf .localOrigin [1#8, 2#8] := by decide

/-- V71: the second registration answers id 1. -/
theorem test_reg : reply (exec (.reg 0x20#8 0xF0#8 1#2) (withSlot none none)) = some (.ok, 1#32) := by decide

/-- V73: REG after a DISP. -/
theorem test_reg_locked :
    reply (exec (.reg 0x55#8 0xFF#8 0#2) (withSlot (some [0x12#8]) none)) = some (.regLocked, 0#32) := by decide

/-- V72. -/
theorem test_disp_matched :
    reply (exec (.disp .rx) { withSlot none none with rxp := packetOf .unknown [0x12#8, 0x34#8, 0x46#8] }) =
      some (.ok, 0x00000002#32) := by decide

/-- P5: an INVALID dispatch locks the registry. -/
theorem test_disp_invalid :
    (after (exec (.disp .tx) (withTx .unknown [0x99#8]))).reg.lock = true := by decide

/-- V79. -/
theorem test_xfer :
    reply (exec (.sinfo 0#4) (after (exec (.xfer 0#4) (withSlot (some [0x12#8, 0x34#8, 0x46#8]) none)))) =
      some (.ok, 0xFF120307#32) := by decide

/-- V77: XFER of an unregistered slot. -/
theorem test_xfer_range : reply (exec (.xfer 1#4) (withSlot none none)) = some (.range, 0#32) := by decide

/-- V76. -/
theorem test_sinfo_empty : reply (exec (.sinfo 0#4) (withSlot none none)) = some (.ok, 0xFF120009#32) := by decide

/-- V80: `changed` is 1 when a byte differs. -/
theorem test_sinfo_changed :
    reply (exec (.sinfo 0#4) (withSlot (some [0x12#8, 0x35#8, 0x47#8]) (some [0x12#8, 0x34#8, 0x46#8]))) =
      some (.ok, 0xFF12030F#32) := by decide

/-- V78. -/
theorem test_srdb :
    reply (exec (.srdb 0#4 .cur 2#8) (withSlot (some [0x12#8, 0x34#8, 0x46#8]) none)) = some (.ok, 0x46#32) := by decide

/-- V78: the absent `prev`. -/
theorem test_srdb_absent :
    reply (exec (.srdb 0#4 .prev 0#8) (withSlot (some [0x12#8, 0x34#8, 0x46#8]) none)) = some (.absent, 0#32) := by decide

/-- V80. -/
theorem test_sload :
    (after (exec (.sload 0#4 .tx) (withSlot (some [0x12#8, 0x35#8, 0x47#8]) none))).txp =
      packetOf .heater [0x12#8, 0x35#8, 0x47#8] := by decide

/-- V41. -/
theorem test_enc : reply (exec (.enc .tx) (withTx .unknown [0x80#8])) = some (.ok, 0x14#32) := by decide

/-- V42. -/
theorem test_enc_busy :
    reply (exec (.enc .tx) (after (exec (.enc .tx) (withTx .unknown [0x80#8])))) = some (.busy, 0#32) := by decide

/-- V43: the fourth record is the high half of a `1` bit. -/
theorem test_txpop :
    reply
        (exec .txpop
          { State.reset with
            enc := { active := true, cursor := 3#16, total := 20#16, txn := 1#8, txbuf := 0x80#8 :: List.replicate 7 0#8 } }) =
      some (.ok, 0x18000BB8#32) := by decide

/-- V45: the gap is the last record; the encoder is idle after it. -/
theorem test_txpop_last :
    (after
        (exec .txpop
          { State.reset with
            enc := { active := true, cursor := 19#16, total := 20#16, txn := 1#8, txbuf := 0x80#8 :: List.replicate 7 0#8 } })).enc =
      { active := false, cursor := 0#16, total := 0#16, txn := 0#8, txbuf := 0x80#8 :: List.replicate 7 0#8 } := by decide

/-- V47. -/
theorem test_txabort :
    (after (exec .txabort (after (exec (.enc .tx) (withTx .unknown [1#8, 2#8, 3#8]))))).enc.active = false := by decide

/-- V83. -/
theorem test_rdreg_lastdisp : reply (exec (.rdreg 5#4) State.reset) = some (.ok, 0x0000FF03#32) := by decide

/-- V88: STATUS with TERR, IRQ and LAST_TERR 2. -/
theorem test_rdreg_status :
    reply
        (exec (.rdreg 1#4)
          (after (exec (.pulse .low 1000#27) { inPhase .headHigh 0#16 0#8 with cfg := 0x301E#16 }))) =
      some (.ok, 0x00020022#32) := by decide

/-- V86: TOL 101 is RANGE. -/
theorem test_wrreg_tol : reply (exec (.wrreg 0#4 0x0065#16) State.reset) = some (.range, 0#32) := by decide

/-- V86: a read-only register is ILLEGAL. -/
theorem test_wrreg_status : reply (exec (.wrreg 1#4 0#16) State.reset) = some (.illegal, 0#32) := by decide

/-- R213 example: `CLRST 0x0003`. -/
theorem test_clrst :
    (after (exec (.clrst 0x0003#16)
        { State.reset with flags := { rxReady := true, terr := true, rxOvf := true, lastTerr := .level } })).flags =
      { rxReady := false, terr := false, rxOvf := true, lastTerr := .none } := by decide

/-- V36: the gap record that completes a one-byte frame. -/
theorem test_step_complete :
    (after
        (step
          { inPhase .bitHigh 8#16 0xA5#8 with
            dec := { (inPhase .bitHigh 8#16 0xA5#8).dec with abuf := 0xA5#8 :: List.replicate 7 0#8 }
            inputs := [.command { word := 0x1800EA60#32, nowMs := 777#32, rxSrc := .heater }] })).rxp =
      { packetOf .heater [0xA5#8] with time := 777#32 } := by decide

/-- V82: an illegal word is answered, not refused. -/
theorem test_step_illegal :
    reply (step (State.reset.withFetchWord 32 0x60000000)) = some (.illegal, 0#32) := by decide

/-- The pending word runs as the first command after reset. -/
theorem test_step_first : reply (step (State.reset.withFetchWord 32 0x50000000)) = some (.ok, 0x1E#32) := by decide

/-- R92 and R93: an assembler line and a pseudo-instruction. -/
theorem test_asm : asmLine (.srdb 0#4 .cur 2#8) = "SRDB 0, CUR, 2" ∧ (asmWireframe Params.reference [0x12#8]).length = 20 := by
  decide

/-! ### The assembler: lines and words as spec/30_encoding.md R93 and the examples of the command rules write them -/

theorem test_assemble_pulse :
    assembleWords Params.reference "PULSE 1, 5000" = some [0x18001388#32] ∧
      assembleWords Params.reference "  PULSE LO, 0x2328 ; heading low" = some [0x10002328#32] := by decide

theorem test_assemble_reg : assembleWords Params.reference "REG 0x20, 0xF0, LONG" = some [0x3001F020#32] := by decide

theorem test_assemble_wrreg : assembleWords Params.reference "WRREG CFG, 0x3119" = some [0x51003119#32] := by decide

theorem test_assemble_hdr : assembleWords Params.reference "HDR" = some [0x10002328#32, 0x18001388#32] := by decide

theorem test_assemble_refuses :
    assembleLine Params.reference "; only a comment" = some [] ∧ assembleLine Params.reference "PUSH TX, 256" = none ∧
      assembleLine Params.reference "PUSH TX" = none := by decide

/-- A printed line is read back as its command. -/
theorem test_assemble_printed :
    [Instr.ckgen .tx true, .srdb 0#4 .prev 1#8, .sload 3#4 .rx, .rdreg 9#4, .reg 1#8 2#8 3#2, .clrst 0x8002#16].all
      (fun i => assembleLine Params.reference (asmLine i) = some [i]) = true := by decide

end Sys2Proof.Tests
end

