-- ==== Sys2Proof/Tests/Witness.lean ====
section
/-! SUPPORT. For every statement with hypotheses, a concrete state and operands that meet them all together, one case per clause,
at boundary values where the clauses have a range. Each theorem is named after its statement. -/

namespace Sys2Proof.Tests

open Sys2Proof.Machine

/-! ### The states -/

/-- One slot `0x12/0xFF/ANY` with the packets given, after a dispatch when it holds one. -/
def slotState (cur prev : Option (List Byte)) : State :=
  { withSlot cur prev with lastDisp := if cur.isSome then 0x00000002#32 else 0x0000FF03#32 }

/-- The reset state with a frame of one byte in transmission, its record `k` the next one. -/
def sending (k : Half) : State :=
  { State.reset with
    enc := { active := true, cursor := k, total := 20#16, txn := 1#8, txbuf := 0x80#8 :: List.replicate 7 0#8 } }

/-- A state whose `RXP` holds the valid short packet 12 34 46. -/
def withRx (s : State) : State := { s with rxp := packetOf .unknown [0x12#8, 0x34#8, 0x46#8] }

/-- A state with one command pending. -/
def pending (w : Word) : State := State.reset.pend w

theorem reset_inv : State.reset.Inv := by constructor <;> decide
theorem tx_inv : (withTx .localOrigin [0x12#8, 0x34#8, 0x46#8]).Inv := by constructor <;> decide
theorem full_inv : (withTx .localOrigin (List.replicate 8 7#8)).Inv := by constructor <;> decide
theorem headHigh_inv : (inPhase .headHigh 0#16 0#8).Inv := by constructor <;> decide
theorem bitLow_inv (n : Half) (h : n = 0#16 ∨ n = 3#16 ∨ n = 8#16 ∨ n = 72#16) : (inPhase .bitLow n 0xA5#8).Inv := by
  rcases h with rfl | rfl | rfl | rfl <;> constructor <;> decide
theorem bitHigh_inv (n : Half) (h : n = 0#16 ∨ n = 3#16 ∨ n = 8#16 ∨ n = 0xFFFF#16) : (inPhase .bitHigh n 0xA5#8).Inv := by
  rcases h with rfl | rfl | rfl | rfl <;> constructor <;> decide
theorem sending_inv (k : Half) (h : k = 0#16 ∨ k = 19#16) : (sending k).Inv := by
  rcases h with rfl | rfl <;> constructor <;> decide
theorem emptySlot_inv : (withRx (slotState none none)).Inv := by constructor <;> decide
theorem staged_inv : (withRx (slotState (some [0x12#8, 0x35#8, 0x47#8]) none)).Inv := by constructor <;> decide
theorem prev_inv :
    (withRx (slotState (some [0x12#8, 0x34#8, 0x46#8]) (some [0x12#8, 0x34#8, 0x46#8]))).Inv := by constructor <;> decide

/-! ### Encoding -/

theorem witness_DecodeOfEncode :
    (Instr.clrst 0xC007#16).wellFormed = true ∧ (Instr.wrreg 15#4 0xFFFF#16).wellFormed = true := by decide

theorem witness_EncodeOfDecode : decode 0x1FFFFFFF#32 = .ok (.pulse .high 0x7FFFFFF#27) := by decide

theorem witness_IllegalWordsAnsweredIllegal :
    ((pending 0xF0000000#32).inputs = .command { word := 0xF0000000#32, nowMs := 0#32, rxSrc := .unknown } :: [] ∧
        IllegalWord 0xF0000000#32) ∧
      (pending 0#32).inputs = .command { word := 0#32, nowMs := 0#32, rxSrc := .unknown } :: [] ∧ ¬IllegalWord 0#32 :=
  ⟨⟨rfl, trivial⟩, rfl, fun h => h rfl⟩

/-! ### Steps, reset, invariants -/

theorem witness_StepRunsDecodedCommand :
    (pending 0x41000000#32).inputs = .command { word := 0x41000000#32, nowMs := 0#32, rxSrc := .unknown } :: [] ∧
      decode 0x41000000#32 = .ok .txpop := by decide

theorem witness_StepWaitsWithoutInput : State.reset.inputs = [] := rfl

theorem witness_ResetInputRestoresResetState : { sending 0#16 with inputs := [.reset] }.inputs = HostInput.reset :: [] := rfl

theorem witness_ResetSatisfiesInvariant :
    Params.reference.Legal ∧ ({ Params.reference with cap := 255, nslot := 16, tolReset := 100#7 } : Params).Legal := by decide

theorem witness_StepKeepsInvariant : State.reset.Inv ∧ step State.reset = .next State.reset := ⟨reset_inv, rfl⟩

theorem witness_RefusedCommandChangesNothing :
    (exec (.rdreg 8#4) State.reset = .next (State.reset.withRsp .range 0#32) ∧
        (State.reset.withRsp .range 0#32).rsp.status ≠ .ok) ∧
      (pending 0x60000000#32).inputs = .command { word := 0x60000000#32, nowMs := 0#32, rxSrc := .unknown } :: [] ∧
      step (pending 0x60000000#32) = .next (State.reset.withRsp .illegal 0#32) ∧
      (State.reset.withRsp .illegal 0#32).rsp.status ≠ .ok :=
  ⟨⟨rfl, by decide⟩, rfl, rfl, by decide⟩

/-- A step; an RDB at the first undefined byte and at the last index below CAP; a SRDB of `cur` and of `prev` likewise. -/
theorem witness_ParametersNeverChange :
    step (pending 0#32) = .next State.reset ∧
      (let s := (withTx .localOrigin [0x12#8, 0x34#8, 0x46#8]).pend 0x23800300#32;
        s.inputs = .command { word := 0x23800300#32, nowMs := 0#32, rxSrc := .unknown } :: [] ∧
          decode 0x23800300#32 = .ok (.rdb .tx 3#8) ∧ (s.pkt .tx).len.toNat ≤ (3#8).toNat ∧ (7#8).toNat < s.params.cap ∧
          ∃ t, step s = .next t) ∧
      let s := (withRx (slotState (some [0x12#8, 0x34#8, 0x46#8]) (some [0x12#8, 0x34#8, 0x46#8]))).pend 0x34000300#32
      s.inputs = .command { word := 0x34000300#32, nowMs := 0#32, rxSrc := .unknown } :: [] ∧
        decode 0x34000300#32 = .ok (.srdb 0#4 .cur 3#8) ∧ decode 0x34080700#32 = .ok (.srdb 0#4 .prev 7#8) ∧
        (0#4).toNat < s.params.nslot ∧ (s.slot (0#4).toNat).hasCur = true ∧ (s.slot (0#4).toNat).hasPrev = true ∧
        (s.slot (0#4).toNat).cur.len.toNat ≤ (3#8).toNat ∧ (s.slot (0#4).toNat).prev.len.toNat ≤ (7#8).toNat ∧
        (7#8).toNat < s.params.cap ∧ ∃ t, step s = .next t :=
  ⟨rfl, ⟨rfl, by decide, by decide, by decide, _, rfl⟩,
    ⟨rfl, by decide, by decide, by decide, rfl, rfl, by decide, by decide, by decide, _, rfl⟩⟩

/-- Every flag and the cause field set, and a command that is not CLRST. -/
theorem witness_OnlyClrstClearsStickyFlags :
    let s := { State.reset with flags := { rxReady := true, terr := true, rxOvf := true, lastTerr := .glitch } }
    exec .nop s = .next (s.withRsp .ok 0#32) ∧ (∀ v, Instr.nop ≠ .clrst v) ∧ s.flags.rxReady = true ∧ s.flags.terr = true ∧
      s.flags.rxOvf = true ∧ s.flags.lastTerr ≠ .none :=
  ⟨rfl, nofun, rfl, rfl, rfl, by decide⟩

theorem witness_OnlyPulseMovesDecoder :
    (exec .nop State.reset = .next (State.reset.withRsp .ok 0#32) ∧ ∀ l d, Instr.nop ≠ .pulse l d) ∧
      exec (.pulse .low 0#27) State.reset = .next (State.reset.withRsp .ok 0#32) :=
  ⟨⟨rfl, nofun⟩, rfl⟩

theorem witness_FirstDispatchEndsRegistration :
    let s := slotState (some [0x12#8]) none
    s.reg.lock = true ∧ exec (.reg 1#8 2#8 0#2) s = .next (s.withRsp .regLocked 0#32) := ⟨rfl, rfl⟩

theorem witness_StagedSlotStaysStaged :
    let s := withRx (slotState (some [0x12#8, 0x34#8, 0x46#8]) (some [0x12#8, 0x34#8, 0x46#8]))
    s.Inv ∧ exec .nop s = .next (s.withRsp .ok 0#32) ∧ 0 < s.reg.nreg.toNat ∧ (s.slot 0).hasCur = true ∧
      (s.slot 0).hasPrev = true :=
  ⟨prev_inv, rfl, by decide, rfl, rfl⟩

theorem witness_ReadCommandsChangeNothing : ∃ r, Instr.rdreg 1#4 = .rdreg r := ⟨1#4, rfl⟩

/-- Two states that differ in bytes above `len` only, and a command that reads the packet. -/
theorem witness_UndefinedBytesUnobservable :
    let s := State.reset
    let s' := { State.reset with txp := { State.reset.txp with data := List.replicate 8 0xFF#8 } }
    s.Inv ∧ s'.Inv ∧ s ≠ s' ∧ AgreeOnDefined s s' ∧ exec (.pinfo .tx) s = .next (s.withRsp .ok 0#32) ∧
      exec (.pinfo .tx) s' = .next (s'.withRsp .ok 0#32) := by
  refine ⟨reset_inv, by constructor <;> decide, by decide, ⟨rfl, ?_, ?_, ?_, ?_, ?_⟩, rfl, rfl⟩
  · exact ⟨rfl, rfl, rfl, rfl, rfl, fun _ _ => rfl⟩
  · exact ⟨rfl, rfl, rfl, rfl, rfl, fun i h => absurd h (by simp [State.reset, State.resetWith, Packet.reset])⟩
  · exact fun _ _ => rfl
  · exact fun _ _ => rfl
  · exact fun _ => ⟨rfl, ⟨rfl, rfl, rfl, rfl, rfl, fun _ _ => rfl⟩, ⟨rfl, rfl, rfl, rfl, rfl, fun _ _ => rfl⟩⟩

/-! ### The pulse decoder -/

/-- An aborted, a completing and an accepted record. -/
theorem witness_PulseAnswersOk :
    (after (exec (.pulse .low 1000#27) (inPhase .headHigh 0#16 0#8))).rsp.data.extractLsb' 0 2 = 3#2 ∧
      (after (exec (.pulse .high 50001#27) (inPhase .bitHigh 8#16 0xA5#8))).rsp.data.extractLsb' 0 2 = 2#2 ∧
      (after (exec (.pulse .low 9000#27) State.reset)).rsp.data.extractLsb' 0 2 ≠ 3#2 := by decide

theorem witness_GlitchPulse :
    (599#27).toNat < State.reset.params.thresh.toNat ∧ State.reset.dec.phase = .idle ∧
      (inPhase .bitHigh 3#16 0#8).dec.phase ≠ .idle := by decide

/-- The first duration that is no glitch, and both edges of the heading-low window with the durations just outside. -/
theorem witness_IdlePulse :
    (State.reset.dec.phase = .idle ∧ State.reset.params.thresh.toNat ≤ (600#27).toNat) ∧
      InWindow State.reset 6300#27 State.reset.params.hdrLow ∧ InWindow State.reset 11700#27 State.reset.params.hdrLow ∧
      ¬InWindow State.reset 6299#27 State.reset.params.hdrLow ∧ ¬InWindow State.reset 11701#27 State.reset.params.hdrLow := by
  simp only [← inWin_iff]; decide

/-- A record in the heading-high window at its edges, one just outside, and a low record inside and outside the heading-low
window. -/
theorem witness_HeadHighPulse :
    let s := inPhase .headHigh 0#16 0#8
    s.dec.phase = .headHigh ∧ s.params.thresh.toNat ≤ (3499#27).toNat ∧ InWindow s 3500#27 s.params.hdrHigh ∧
      InWindow s 6500#27 s.params.hdrHigh ∧ ¬InWindow s 3499#27 s.params.hdrHigh ∧ ¬InWindow s 6501#27 s.params.hdrHigh ∧
      InWindow s 9000#27 s.params.hdrLow ∧ ¬InWindow s 3499#27 s.params.hdrLow := by
  simp only [← inWin_iff]; decide

/-- Both edges of the bit-low window, the two sides of the end gap, and frames of no bit, three bits, one byte and nine bytes
(one more than CAP) to end. -/
theorem witness_BitLowPulse :
    (∀ n, n = 0#16 ∨ n = 3#16 ∨ n = 8#16 ∨ n = 72#16 → (inPhase .bitLow n 0xA5#8).Inv) ∧
      let s := inPhase .bitLow 8#16 0xA5#8
      s.dec.phase = .bitLow ∧ s.params.thresh.toNat ≤ (700#27).toNat ∧ InWindow s 700#27 s.params.bitLow ∧
        InWindow s 1300#27 s.params.bitLow ∧ ¬InWindow s 1301#27 s.params.bitLow ∧
        s.params.endGap.toNat < (50001#27).toNat ∧ (50000#27).toNat ≤ s.params.endGap.toNat ∧
        InWindow s 9000#27 s.params.hdrLow ∧ ¬InWindow s 1301#27 s.params.hdrLow := by
  refine ⟨bitLow_inv, ?_⟩
  simp only [← inWin_iff]; decide

/-- A zero, a one, the two sides of the end gap outside both windows; room for one more bit and no room. -/
theorem witness_BitHighPulse :
    (∀ n, n = 0#16 ∨ n = 3#16 ∨ n = 8#16 ∨ n = 0xFFFF#16 → (inPhase .bitHigh n 0xA5#8).Inv) ∧
      let s := inPhase .bitHigh 8#16 0xA5#8
      s.dec.phase = .bitHigh ∧ s.params.thresh.toNat ≤ (1300#27).toNat ∧ InWindow s 1300#27 s.params.zeroHigh ∧
        ¬InWindow s 2100#27 s.params.zeroHigh ∧ InWindow s 2100#27 s.params.oneHigh ∧
        ¬InWindow s 50001#27 s.params.zeroHigh ∧ ¬InWindow s 50001#27 s.params.oneHigh ∧
        s.params.endGap.toNat < (50001#27).toNat ∧ ¬InWindow s 50000#27 s.params.zeroHigh ∧
        ¬InWindow s 50000#27 s.params.oneHigh ∧ (50000#27).toNat ≤ s.params.endGap.toNat := by
  refine ⟨bitHigh_inv, ?_⟩
  simp only [← inWin_iff]; decide

theorem witness_CodecRoundTrip :
    State.reset.Inv ∧ State.reset.dec.phase = .idle ∧ 1 ≤ [0x80#8].length ∧
      (List.replicate 8 0xA5#8 : List Byte).length ≤ State.reset.params.cap :=
  ⟨reset_inv, rfl, by decide, by decide⟩

/-! ### The pulse encoder -/

/-- The first and the last bit of a list of two bytes. -/
theorem witness_RecordList :
    [0x80#8, 0x01#8][0]? = some 0x80#8 ∧ [0x80#8, 0x01#8][1]? = some 0x01#8 ∧ 2 = 2 + 16 * 0 + 2 * 0 ∧
      33 = 2 + 16 * 1 + 2 * 7 + 1 := by decide

theorem witness_EncSnapshotsPacket :
    ((sending 0#16).Inv ∧ (sending 0#16).enc.active = true) ∧ State.reset.Inv ∧ State.reset.enc.active = false :=
  ⟨⟨sending_inv _ (.inl rfl), rfl⟩, reset_inv, rfl⟩

/-- The first record and the last one. -/
theorem witness_TxpopAnswersNextRecord :
    (State.reset.Inv ∧ State.reset.enc.active = false) ∧
      ((sending 0#16).Inv ∧ (sending 0#16).enc.active = true ∧
        (sending 0#16).enc.cursor.toNat + 1 < (sending 0#16).enc.total.toNat) ∧
      (sending 19#16).Inv ∧ (sending 19#16).enc.cursor.toNat + 1 = (sending 19#16).enc.total.toNat :=
  ⟨⟨reset_inv, rfl⟩, ⟨sending_inv _ (.inl rfl), rfl, by decide⟩, sending_inv _ (.inr rfl), by decide⟩

theorem witness_PopsAnswerWholeRecordList :
    (withTx .localOrigin [0x12#8, 0x34#8, 0x46#8]).Inv ∧
      (withTx .localOrigin [0x12#8, 0x34#8, 0x46#8]).enc.active = false :=
  ⟨tx_inv, rfl⟩

/-! ### The packet framer -/

/-- An empty packet and a full one. -/
theorem witness_PushAppendsByte :
    (State.reset.Inv ∧ (State.reset.pkt .tx).len.toNat < State.reset.params.cap) ∧
      (withTx .localOrigin (List.replicate 8 7#8)).Inv ∧
      (withTx .localOrigin (List.replicate 8 7#8)).params.cap ≤
        ((withTx .localOrigin (List.replicate 8 7#8)).pkt .tx).len.toNat :=
  ⟨⟨reset_inv, by decide⟩, full_inv, by decide⟩

theorem witness_WrbWritesByte :
    State.reset.Inv ∧ State.reset.params.cap ≤ (8#8).toNat ∧ (7#8).toNat < State.reset.params.cap :=
  ⟨reset_inv, by decide, by decide⟩

/-- The last defined byte, the first undefined one, the last index and CAP. -/
theorem witness_RdbReadsByte :
    let s := withTx .localOrigin [0x12#8, 0x34#8, 0x46#8]
    s.Inv ∧ (2#8).toNat < (s.pkt .tx).len.toNat ∧ (s.pkt .tx).len.toNat ≤ (3#8).toNat ∧ (7#8).toNat < s.params.cap ∧
      s.params.cap ≤ (8#8).toNat :=
  ⟨tx_inv, by decide, by decide, by decide, by decide⟩

theorem witness_InvComplementsBytes : (withTx .localOrigin [0x12#8, 0x34#8, 0x46#8]).Inv := tx_inv

theorem witness_BrevReversesBits : (withTx .localOrigin [0x12#8, 0x34#8, 0x46#8]).Inv := tx_inv

theorem witness_ChecksumReductions :
    (0x001E#16).extractLsb' 8 2 = 0#2 ∧ (0x011E#16).extractLsb' 8 2 = 1#2 ∧ (0x021E#16).extractLsb' 8 2 = 2#2 := by decide

theorem witness_CkcalcAnswersChecksum :
    State.reset.cfg.extractLsb' 8 2 = 0#2 ∧ { State.reset with cfg := 0x011E#16 }.cfg.extractLsb' 8 2 = 1#2 ∧
      { State.reset with cfg := 0x021E#16 }.cfg.extractLsb' 8 2 = 2#2 ∧
      ((withTx .unknown [0x55#8]).pkt .tx).len.toNat ≤ 1 := by decide

theorem witness_CkgenSealsPacket :
    (State.reset.Inv ∧ (State.reset.pkt .tx).len.toNat = 0) ∧ (withTx .localOrigin [0x12#8, 0x34#8, 0x46#8]).Inv ∧
      1 ≤ ((withTx .localOrigin [0x12#8, 0x34#8, 0x46#8]).pkt .tx).len.toNat :=
  ⟨⟨reset_inv, by decide⟩, tx_inv, by decide⟩

theorem witness_ChecksumFormsExclusive :
    exec (.pinfo .tx) State.reset = .next (State.reset.withRsp .ok 0#32) := rfl

/-! ### The demultiplexer -/

/-- The four outcomes: `lensel` 3, a locked registry, a full one, a free slot. -/
theorem witness_RegRegistersSlot :
    (∀ s : State, s = withRx (slotState (some [0x12#8, 0x35#8, 0x47#8]) none) → s.Inv ∧ s.reg.lock = true) ∧
      (∀ s : State, s = { State.reset with reg := { State.reset.reg with nreg := 4#5 } } →
        s.Inv ∧ s.reg.lock = false ∧ s.reg.nreg.toNat = s.params.nslot) ∧
      (∀ s : State, s = { State.reset with reg := { State.reset.reg with nreg := 3#5 } } →
        s.Inv ∧ s.reg.lock = false ∧ s.reg.nreg.toNat < s.params.nslot) ∧
      (2#2 : BitVec 2) ≠ 3#2 := by
  refine ⟨fun s h => h ▸ ⟨staged_inv, rfl⟩, fun s h => h ▸ ⟨?_, rfl, by decide⟩, fun s h => h ▸ ⟨?_, rfl, by decide⟩, by decide⟩
  · constructor <;> decide
  · constructor <;> decide

/-- An invalid packet, a valid one that no slot matches, a valid one that slot 0 matches. -/
theorem witness_DispClassifiesAndStages :
    (State.reset.Inv ∧ ¬PacketValid State.reset (State.reset.pkt .rx)) ∧
      (PacketValid (withRx State.reset) ((withRx State.reset).pkt .rx) ∧
        ∀ i, ¬SlotMatches (withRx State.reset) ((withRx State.reset).pkt .rx) i) ∧
      let s := withRx (slotState none none)
      s.Inv ∧ PacketValid s (s.pkt .rx) ∧ FirstMatch s (s.pkt .rx) 0 := by
  refine ⟨⟨reset_inv, ?_⟩, ⟨?_, ?_⟩, emptySlot_inv, ?_, ?_⟩
  · rw [← valid_iff]; decide
  · rw [← valid_iff]; decide
  · rw [← matchId_eq_none]; decide
  · rw [← valid_iff]; decide
  · rw [← matchId_eq_some]; decide

theorem witness_DisjointMatchersAreExact :
    let s := withRx (slotState none none)
    s.Inv ∧ PacketValid s (s.pkt .rx) ∧ SlotMatches s (s.pkt .rx) 0 ∧
      ∀ j k, j < s.reg.nreg.toNat → k < s.reg.nreg.toNat → j ≠ k → ∀ b, ¬((s.slot j).Claims b ∧ (s.slot k).Claims b) := by
  refine ⟨emptySlot_inv, ?_, ?_, ?_⟩
  · rw [← valid_iff]; decide
  · rw [← slotMatches_iff]; decide
  · intro j k hj hk hne
    have hn : (withRx (slotState none none)).reg.nreg.toNat = 1 := by decide
    rw [hn] at hj hk
    omega

/-- A slot never staged; a slot staged with another packet, and one staged with the same bytes. -/
theorem witness_ChangeDetection :
    (let s := withRx (slotState none none);
      s.Inv ∧ PacketValid s (s.pkt .rx) ∧ FirstMatch s (s.pkt .rx) (0#4).toNat ∧ (s.slot 0).hasCur = false) ∧
      (let s := withRx (slotState (some [0x12#8, 0x35#8, 0x47#8]) none);
        s.Inv ∧ PacketValid s (s.pkt .rx) ∧ FirstMatch s (s.pkt .rx) (0#4).toNat ∧ (s.slot 0).hasCur = true ∧
          ¬SameBytes (s.pkt .rx) (s.slot 0).cur) ∧
      let s := withRx (slotState (some [0x12#8, 0x34#8, 0x46#8]) (some [0x12#8, 0x34#8, 0x46#8]))
      s.Inv ∧ FirstMatch s (s.pkt .rx) (0#4).toNat ∧ SameBytes (s.pkt .rx) (s.slot 0).cur := by
  refine ⟨⟨emptySlot_inv, ?_, ?_, rfl⟩, ⟨staged_inv, ?_, ?_, rfl, ?_⟩, prev_inv, ?_, ?_⟩
  · rw [← valid_iff]; decide
  · rw [← matchId_eq_some]; decide
  · rw [← valid_iff]; decide
  · rw [← matchId_eq_some]; decide
  · unfold SameBytes; decide
  · rw [← matchId_eq_some]; decide
  · unfold SameBytes; decide

/-- The first unregistered slot, the first number past the registry, a slot never staged, and a staged one. -/
theorem witness_XferSnapshotsCurrent :
    (let s := withRx (slotState none none);
      s.Inv ∧ s.reg.nreg.toNat ≤ (1#4).toNat ∧ s.params.nslot ≤ (4#4).toNat ∧ (0#4).toNat < s.params.nslot ∧
        (0#4).toNat < s.reg.nreg.toNat ∧ (s.slot (0#4).toNat).hasCur = false) ∧
      let s := withRx (slotState (some [0x12#8, 0x35#8, 0x47#8]) none)
      s.Inv ∧ (0#4).toNat < s.reg.nreg.toNat ∧ (s.slot (0#4).toNat).hasCur = true :=
  ⟨⟨emptySlot_inv, by decide, by decide, by decide, by decide, rfl⟩, staged_inv, by decide, rfl⟩

theorem witness_SinfoFields :
    let s := withRx (slotState none none)
    s.params.nslot ≤ (4#4).toNat ∧ (3#4).toNat < s.params.nslot ∧ s.reg.nreg.toNat ≤ (1#4).toNat ∧
      (0#4).toNat < s.params.nslot ∧ (0#4).toNat < s.reg.nreg.toNat := by decide

/-- A present `cur` at its last defined byte and the first undefined one, an absent `prev`, and both RANGE edges. -/
theorem witness_SrdbReadsSlotByte :
    let s := withRx (slotState (some [0x12#8, 0x35#8, 0x47#8]) none)
    s.Inv ∧ (0#4).toNat < s.params.nslot ∧ (7#8).toNat < s.params.cap ∧ (s.slot (0#4).toNat).hasCur = true ∧
      (s.slot (0#4).toNat).hasPrev = false ∧ (2#8).toNat < (s.slot (0#4).toNat).cur.len.toNat ∧
      (s.slot (0#4).toNat).cur.len.toNat ≤ (3#8).toNat ∧ s.params.nslot ≤ (4#4).toNat ∧ s.params.cap ≤ (8#8).toNat :=
  ⟨staged_inv, by decide⟩

theorem witness_SloadLoadsCurrent :
    let s := withRx (slotState (some [0x12#8, 0x35#8, 0x47#8]) none)
    s.params.nslot ≤ (4#4).toNat ∧ (3#4).toNat < s.params.nslot ∧ (s.slot (3#4).toNat).hasCur = false ∧
      (s.slot (0#4).toNat).hasCur = true := by decide

/-! ### Registers -/

/-- The least and the greatest illegal word of the group, the latter pending. -/
theorem witness_NopChangesNothing :
    ((1#32).toNat < 2 ^ 28 ∧ 1#32 ≠ 0#32) ∧ ((0x0FFFFFFF#32).toNat < 2 ^ 28 ∧ 0x0FFFFFFF#32 ≠ 0#32) ∧
      (pending 0x0FFFFFFF#32).inputs = .command { word := 0x0FFFFFFF#32, nowMs := 0#32, rxSrc := .unknown } :: [] := by
  decide

theorem witness_RdregReadsRegister : 8 ≤ (8#4).toNat := by decide

/-- TOL 100 is legal, 101 is not; CKALG 2 is legal, 3 is not; one reserved bit set. -/
theorem witness_WrregWritesCfg :
    (0x0080#16 &&& 0xCC80#16 ≠ 0#16) ∧ 8 ≤ (8#4).toNat ∧ (1 ≤ (7#4).toNat ∧ (7#4).toNat ≤ 7) ∧
      (0x0265#16 &&& 0xCC80#16 = 0#16 ∧ 100 < (0x0265#16).toNat % 128) ∧
      (0x0364#16 &&& 0xCC80#16 = 0#16 ∧ (0x0364#16).toNat / 256 % 4 = 3) ∧
      0x0264#16 &&& 0xCC80#16 = 0#16 ∧ (0x0264#16).toNat % 128 ≤ 100 ∧ (0x0264#16).toNat / 256 % 4 ≠ 3 := by decide

theorem witness_ClrstClearsSticky :
    0x0008#16 &&& 0x3FF8#16 ≠ 0#16 ∧ 0x2000#16 &&& 0x3FF8#16 ≠ 0#16 ∧ 0xC007#16 &&& 0x3FF8#16 = 0#16 := by decide

end Sys2Proof.Tests
end

/-! PROOFS. Memory access and ordering (spec/20_memory.md): what one step of the host's command list runs. -/

namespace Sys2Proof.Machine

/-- The step of a legal command word: its command runs whole on the sampled state (spec/00_scope.md R10). -/
theorem step_of_decode_ok {s : State} {c : Command} {rest : List HostInput} {i : Instr}
    (hin : s.inputs = .command c :: rest) (hdec : decode c.word = .ok i) : step s = exec i (s.sample c rest) := by
  simp only [step, hin, hdec]

/-- Settles O5: the equation of `step` at a legal word, with `State.sample` written out. -/
theorem stepRunsDecodedCommand : Obligations.StepRunsDecodedCommand := by
  intro s c rest i hin hdec
  calc step s = exec i (s.sample c rest) := step_of_decode_ok hin hdec
    _ = exec i { s with nowMs := c.nowMs, rxSrc := c.rxSrc, inputs := rest } := by rw [State.sample]

end Sys2Proof.Machine

/-! PROOFS. Illegal words (spec/30_encoding.md R89): the fields that must be 0 against the masks of Safety.lean, the decoder row
by row, and the commands that answer ILLEGAL of themselves. -/

namespace Sys2Proof.Machine

/-! ### Fields and masks -/

/-- A field read from the low half of a word is a field of the word. -/
theorem extractLsb'_bits_low (w : Word) (lo n : Nat) (h : lo + n ≤ 16) :
    (bits w 0 16).extractLsb' lo n = bits w lo n := by
  apply BitVec.eq_of_getLsbD_eq
  intro i hi
  have h16 : lo + i < 16 := by omega
  simp only [BitVec.getLsbD_extractLsb', getLsbD_bits, hi, h16, decide_true, Bool.true_and, Nat.zero_add]

/-- A field as a number. -/
theorem toNat_bits (w : Word) (lo n : Nat) : (bits w lo n).toNat = w.toNat / 2 ^ lo % 2 ^ n := by
  rw [bits, BitVec.extractLsb'_toNat, Nat.shiftRight_eq_div_pow]

/-- The major opcode as a number. -/
theorem toNat_bits_op (w : Word) : (bits w 28 4).toNat = w.toNat / 2 ^ 28 := by
  have hw := w.isLt
  rw [toNat_bits]
  omega

/-- The word whose 1 bits are the fields of a list, each given by its lowest bit and its width. -/
def fieldsMask : List (Nat × Nat) → Word
  | [] => 0#32
  | f :: fs => fld (BitVec.allOnes f.2) f.1 ||| fieldsMask fs

/-- Every field of the list is 0 in the word: the conjunctions of `decodeK` to `decodeR`. -/
def fieldsZero (w : Word) (fs : List (Nat × Nat)) : Bool :=
  fs.foldl (fun ok f => ok && bits w f.1 f.2 == 0#f.2) true

theorem fieldsZero_iff (w : Word) (fs : List (Nat × Nat)) :
    fieldsZero w fs = true ↔ ∀ f ∈ fs, bits w f.1 f.2 = 0#f.2 := by
  have h : ∀ b, fs.foldl (fun ok f => ok && bits w f.1 f.2 == 0#f.2) b = true ↔
      b = true ∧ ∀ f ∈ fs, bits w f.1 f.2 = 0#f.2 := by
    induction fs with
    | nil => simp
    | cons f fs ih => intro b; simp [ih, and_assoc]
  exact (h true).trans (and_iff_right rfl)

/-- A mask of one field meets a word exactly in that field. -/
theorem and_fld_allOnes_eq_zero (w : Word) (lo n : Nat) :
    w &&& fld (BitVec.allOnes n) lo = 0#32 ↔ bits w lo n = 0#n := by
  constructor
  · intro h
    apply BitVec.eq_of_getLsbD_eq
    intro i hi
    have hb := congrArg (fun x => x.getLsbD (lo + i)) h
    simp only [BitVec.getLsbD_and, getLsbD_fld, BitVec.getLsbD_allOnes, Nat.add_sub_cancel_left, hi, Nat.le_add_right,
      decide_true, Bool.and_true, BitVec.getLsbD_zero] at hb
    simp only [getLsbD_bits, hi, decide_true, Bool.true_and, BitVec.getLsbD_zero]
    by_cases h32 : lo + i < 32
    · simpa [h32] using hb
    · exact BitVec.getLsbD_of_ge _ _ (by omega)
  · intro h
    apply BitVec.eq_of_getLsbD_eq
    intro i _
    by_cases hf : lo ≤ i ∧ i - lo < n
    · have hb := congrArg (fun x => x.getLsbD (i - lo)) h
      rw [getLsbD_bits, Nat.add_sub_cancel' hf.1] at hb
      have hw : w.getLsbD i = false := by simpa [hf.2] using hb
      simp [hw]
    · have hm : (fld (BitVec.allOnes n) lo).getLsbD i = false := by
        simp only [getLsbD_fld, BitVec.getLsbD_allOnes]
        simp; omega
      rw [BitVec.getLsbD_and, hm, Bool.and_false, BitVec.getLsbD_zero]

/-- A word meets the mask of a list of fields exactly when one of them is not 0. -/
theorem and_fieldsMask_eq_zero (w : Word) (fs : List (Nat × Nat)) :
    w &&& fieldsMask fs = 0#32 ↔ fieldsZero w fs = true := by
  rw [fieldsZero_iff]
  induction fs with
  | nil => simp [fieldsMask]
  | cons f fs ih =>
    rw [fieldsMask, BitVec.and_comm, Laws.or_and, BitVec.or_eq_zero_iff, BitVec.and_comm, and_fld_allOnes_eq_zero,
      BitVec.and_comm, ih, List.forall_mem_cons]

/-! ### Commands that answer ILLEGAL of themselves -/

/-- The commands whose meaning is to answer ILLEGAL, by their operands alone (spec/44_control_regs.md R212, R213). -/
def AnswersIllegal : Instr → Prop
  | .wrreg r v => wrregIllegal r v = true
  | .clrst v => clrstMaskOk v = false
  | _ => False

/-- The outcome is a next state with another status than ILLEGAL. -/
def NextNotIllegal (r : Result) : Prop := ∃ t, r = .next t ∧ t.rsp.status ≠ .illegal

theorem respond_nextNotIllegal (s : State) (d : Word) : NextNotIllegal (s.respond d) := ⟨_, rfl, nofun⟩

theorem raise_nextNotIllegal (s : State) (st : Status) (h : st ≠ .illegal) : NextNotIllegal (s.raise st) := ⟨_, rfl, h⟩

theorem respondByte_nextNotIllegal (s : State) (q : Packet) (idx : Byte) : NextNotIllegal (s.respondByte q idx) := by
  unfold State.respondByte
  split <;> exact respond_nextNotIllegal _ _

/-- A command of `AnswersIllegal` is refused whole. -/
theorem exec_of_answersIllegal {i : Instr} (s : State) (h : AnswersIllegal i) : exec i s = s.raise .illegal := by
  cases i
  case wrreg r v => exact if_pos h
  case clrst v => exact if_neg (Bool.not_eq_true _ ▸ h)
  all_goals exact h.elim

theorem ite_nextNotIllegal {c : Prop} [Decidable c] {r r' : Result} (h : NextNotIllegal r) (h' : NextNotIllegal r') :
    NextNotIllegal (if c then r else r') := by
  split
  · exact h
  · exact h'

/-- No other command answers ILLEGAL: it answers data, or a refusal for a reason that depends on the state or on a field's
range (spec/30_encoding.md R90). -/
theorem exec_nextNotIllegal {i : Instr} (s : State) (h : ¬AnswersIllegal i) : NextNotIllegal (exec i s) := by
  cases i with
  | nop => exact respond_nextNotIllegal _ _
  | pulse l d => exact respond_nextNotIllegal _ _
  | pnew p src => exact respond_nextNotIllegal _ _
  | push p val => exact respond_nextNotIllegal _ _
  | wrb p idx val => exact ite_nextNotIllegal (raise_nextNotIllegal _ _ nofun) (respond_nextNotIllegal _ _)
  | rdb p idx => exact ite_nextNotIllegal (raise_nextNotIllegal _ _ nofun) (respondByte_nextNotIllegal _ _ _)
  | pinfo p => exact respond_nextNotIllegal _ _
  | ptime p => exact respond_nextNotIllegal _ _
  | page p => exact respond_nextNotIllegal _ _
  | inv p => exact respond_nextNotIllegal _ _
  | brev p => exact respond_nextNotIllegal _ _
  | ckgen p inverted => exact respond_nextNotIllegal _ _
  | ckcalc p => exact respond_nextNotIllegal _ _
  | pcopy p => exact respond_nextNotIllegal _ _
  | reg val mask lensel =>
    simp only [exec, execReg]
    split
    · exact raise_nextNotIllegal _ _ nofun
    · exact ite_nextNotIllegal (raise_nextNotIllegal _ _ nofun)
        (ite_nextNotIllegal (raise_nextNotIllegal _ _ nofun) (respond_nextNotIllegal _ _))
  | disp p =>
    refine ite_nextNotIllegal ?_ (respond_nextNotIllegal _ _)
    split <;> exact respond_nextNotIllegal _ _
  | xfer slot => exact ite_nextNotIllegal (raise_nextNotIllegal _ _ nofun) (respond_nextNotIllegal _ _)
  | sinfo slot =>
    exact ite_nextNotIllegal (raise_nextNotIllegal _ _ nofun)
      (ite_nextNotIllegal (respond_nextNotIllegal _ _) (respond_nextNotIllegal _ _))
  | srdb slot which idx =>
    refine ite_nextNotIllegal (raise_nextNotIllegal _ _ nofun) ?_
    split
    · exact raise_nextNotIllegal _ _ nofun
    · exact respondByte_nextNotIllegal _ _ _
  | sload slot p =>
    exact ite_nextNotIllegal (raise_nextNotIllegal _ _ nofun)
      (ite_nextNotIllegal (respond_nextNotIllegal _ _) (raise_nextNotIllegal _ _ nofun))
  | enc p => exact ite_nextNotIllegal (raise_nextNotIllegal _ _ nofun) (respond_nextNotIllegal _ _)
  | txpop =>
    exact ite_nextNotIllegal (ite_nextNotIllegal (respond_nextNotIllegal _ _) (respond_nextNotIllegal _ _))
      (respond_nextNotIllegal _ _)
  | txabort => exact respond_nextNotIllegal _ _
  | rdreg r =>
    simp only [exec, execRdreg]
    split
    · exact respond_nextNotIllegal _ _
    · exact raise_nextNotIllegal _ _ nofun
  | wrreg r v =>
    have hlegal : ¬wrregIllegal r v = true := h
    simp only [exec, execWrreg, if_neg hlegal]
    exact ite_nextNotIllegal (raise_nextNotIllegal _ _ nofun)
      (ite_nextNotIllegal (raise_nextNotIllegal _ _ nofun) (respond_nextNotIllegal _ _))
  | clrst v =>
    have hok : clrstMaskOk v = true := by simpa [AnswersIllegal] using h
    simp only [exec, execClrst, if_pos hok]
    exact respond_nextNotIllegal _ _

/-! ### The decoder, row by row -/

/-- What the decoder read is answered with ILLEGAL: no command at all, or one that answers ILLEGAL of itself. -/
def ReadsIllegal (d : Except DecodeError Instr) : Prop := ∀ i, d = .ok i → AnswersIllegal i

theorem readsIllegal_error (e : DecodeError) : ReadsIllegal (.error e) := nofun

theorem readsIllegal_ok (i : Instr) : ReadsIllegal (.ok i) ↔ AnswersIllegal i :=
  ⟨fun h => h i rfl, fun h j hj => by cases hj; exact h⟩

theorem readsIllegal_whenZero (ok : Bool) (i : Instr) : ReadsIllegal (whenZero ok i) ↔ (ok = true → AnswersIllegal i) := by
  cases ok
  · exact iff_of_true (readsIllegal_error _) nofun
  · exact (readsIllegal_ok i).trans ⟨fun h _ => h, fun h => h rfl⟩

/-- The word breaks the row of the group `op` and sub-opcode `sub` in the mask table: there is no such row, or a bit that must
be 0 is 1. -/
def BreaksRow (op sub : Nat) (w : Word) : Prop :=
  ∀ m, mustBeZeroMask op sub = some m → w &&& BitVec.ofNat 32 m ≠ 0#32

/-- A reserved opcode or sub-opcode. -/
theorem breaksRow_of_reserved {op sub : Nat} (w : Word) (h : mustBeZeroMask op sub = none) : BreaksRow op sub w := by
  intro m hm
  cases h.symm.trans hm

/-- A row whose mask is made of the fields `fs`. -/
theorem breaksRow_iff {op sub : Nat} (w : Word) (fs : List (Nat × Nat))
    (hrow : mustBeZeroMask op sub = some (fieldsMask fs).toNat) : BreaksRow op sub w ↔ ¬fieldsZero w fs = true := by
  simp only [BreaksRow, hrow, Option.some.injEq, forall_eq', BitVec.ofNat_toNat, BitVec.setWidth_eq, ne_eq,
    and_fieldsMask_eq_zero]

/-- A row of the decoder and the row of the mask table agree, when the decoder tests the fields of the mask and the command
does not answer ILLEGAL of itself. -/
theorem readsIllegal_row {op sub : Nat} {w : Word} {i : Instr} (fs : List (Nat × Nat))
    (hrow : mustBeZeroMask op sub = some (fieldsMask fs).toNat) (hi : ¬AnswersIllegal i) :
    ReadsIllegal (whenZero (fieldsZero w fs) i) ↔ BreaksRow op sub w := by
  rw [readsIllegal_whenZero, breaksRow_iff w fs hrow, imp_iff_not hi]

/-- A reserved sub-opcode is refused by the decoder and has no row in the mask table. -/
theorem readsIllegal_reserved {op sub : Nat} {w : Word} {e : DecodeError} (h : mustBeZeroMask op sub = none) :
    ReadsIllegal (.error e) ↔ BreaksRow op sub w :=
  iff_of_true (readsIllegal_error e) (breaksRow_of_reserved w h)

/-- Format K (spec/30_encoding.md R84, R88). -/
theorem decodeK_readsIllegal (w : Word) : ReadsIllegal (decodeK w) ↔ BreaksRow 2 (bits w 24 4).toNat w := by
  have hsub := (bits w 24 4).isLt
  unfold decodeK
  generalize (bits w 24 4).toNat = sub at hsub ⊢
  interval_cases sub
  · exact readsIllegal_row [(18, 5), (8, 8), (0, 8)] rfl nofun
  · exact readsIllegal_row [(18, 5), (16, 2), (8, 8)] rfl nofun
  · exact readsIllegal_row [(18, 5), (16, 2)] rfl nofun
  · exact readsIllegal_row [(18, 5), (16, 2), (0, 8)] rfl nofun
  · exact readsIllegal_row [(18, 5), (16, 2), (8, 8), (0, 8)] rfl nofun
  · exact readsIllegal_row [(18, 5), (16, 2), (8, 8), (0, 8)] rfl nofun
  · exact readsIllegal_row [(18, 5), (16, 2), (8, 8), (0, 8)] rfl nofun
  · exact readsIllegal_row [(18, 5), (16, 2), (8, 8), (0, 8)] rfl nofun
  · exact readsIllegal_row [(18, 5), (16, 2), (8, 8), (0, 8)] rfl nofun
  · exact readsIllegal_row [(18, 5), (16, 2), (8, 8), (1, 7)] rfl nofun
  · exact readsIllegal_row [(18, 5), (16, 2), (8, 8), (0, 8)] rfl nofun
  · exact readsIllegal_row [(18, 5), (16, 2), (8, 8), (0, 8)] rfl nofun
  all_goals exact readsIllegal_reserved rfl

/-- Format D (spec/30_encoding.md R85, R88). -/
theorem decodeD_readsIllegal (w : Word) : ReadsIllegal (decodeD w) ↔ BreaksRow 3 (bits w 24 4).toNat w := by
  have hsub := (bits w 24 4).isLt
  unfold decodeD
  generalize (bits w 24 4).toNat = sub at hsub ⊢
  interval_cases sub
  · exact readsIllegal_row [(20, 4), (19, 1), (18, 1)] rfl nofun
  · exact readsIllegal_row [(20, 4), (18, 1), (16, 2), (8, 8), (0, 8)] rfl nofun
  · exact readsIllegal_row [(19, 1), (18, 1), (16, 2), (8, 8), (0, 8)] rfl nofun
  · exact readsIllegal_row [(19, 1), (18, 1), (16, 2), (8, 8), (0, 8)] rfl nofun
  · exact readsIllegal_row [(18, 1), (16, 2), (0, 8)] rfl nofun
  · exact readsIllegal_row [(18, 1), (16, 2), (8, 8), (0, 8)] rfl nofun
  all_goals exact readsIllegal_reserved rfl

/-- Format T (spec/30_encoding.md R86, R88). -/
theorem decodeT_readsIllegal (w : Word) : ReadsIllegal (decodeT w) ↔ BreaksRow 4 (bits w 24 4).toNat w := by
  have hsub := (bits w 24 4).isLt
  unfold decodeT
  generalize (bits w 24 4).toNat = sub at hsub ⊢
  interval_cases sub
  · exact readsIllegal_row [(0, 23)] rfl nofun
  · exact readsIllegal_row [(23, 1), (0, 23)] rfl nofun
  · exact readsIllegal_row [(23, 1), (0, 23)] rfl nofun
  all_goals exact readsIllegal_reserved rfl

/-- The row of CLRST: the bits of its clear mask that must be 0 are bits [13:3] of the word, so what the decoder lets pass
does not answer ILLEGAL of itself (spec/44_control_regs.md R213). -/
theorem readsIllegal_clrst (w : Word) :
    ReadsIllegal
        (whenZero (bits w 20 4 == 0#4 && bits w 16 4 == 0#4 && clrstMaskOk (bits w 0 16)) (.clrst (bits w 0 16))) ↔
      BreaksRow 5 2 w := by
  have hmask : clrstMaskOk (bits w 0 16) = (bits w 3 11 == 0#11) := by
    rw [clrstMaskOk, extractLsb'_bits_low w 3 11 (by omega)]
  have hfields : fieldsZero w [(20, 4), (16, 4), (3, 11)] =
      (bits w 20 4 == 0#4 && bits w 16 4 == 0#4 && clrstMaskOk (bits w 0 16)) := by rw [hmask]; rfl
  rw [readsIllegal_whenZero, breaksRow_iff w [(20, 4), (16, 4), (3, 11)] rfl, hfields, AnswersIllegal]
  cases clrstMaskOk (bits w 0 16) <;> simp

/-- The reserved bits of a CFG value as fields of the word (spec/44_control_regs.md R212). -/
theorem cfgReservedSet_bits (w : Word) : cfgReservedSet (bits w 0 16) = true ↔ w &&& 0xCC80#32 ≠ 0#32 := by
  have hmask : 0xCC80#32 = fieldsMask [(7, 1), (10, 2), (14, 2)] := rfl
  have hset : cfgReservedSet (bits w 0 16) = !fieldsZero w [(7, 1), (10, 2), (14, 2)] := by
    rw [cfgReservedSet, extractLsb'_bits_low w 7 1 (by omega), extractLsb'_bits_low w 10 2 (by omega),
      extractLsb'_bits_low w 14 2 (by omega)]
    rfl
  rw [hset, hmask, ne_eq, and_fieldsMask_eq_zero, Bool.not_eq_true', Bool.not_eq_true]

/-- The operands of a WRREG word that R89 calls illegal are those that `execWrreg` answers with ILLEGAL. -/
theorem wrregIllegal_bits (w : Word) :
    wrregIllegal (bits w 16 4) (bits w 0 16) = true ↔
      (1 ≤ w.toNat / 2 ^ 16 % 16 ∧ w.toNat / 2 ^ 16 % 16 ≤ 7) ∨
        (w.toNat / 2 ^ 16 % 16 = 0 ∧ w &&& 0xCC80#32 ≠ 0#32) := by
  rw [wrregIllegal, Bool.or_eq_true, Bool.and_eq_true, decide_eq_true_iff, beq_iff_eq, cfgReservedSet_bits,
    BitVec.toNat_eq, toNat_bits]
  rfl

/-- A WRREG that is illegal by its word is in group 5 with sub-opcode 1. -/
theorem illegalWrreg_iff (w : Word) :
    illegalWrreg w ↔
      (bits w 28 4).toNat = 5 ∧ (bits w 24 4).toNat = 1 ∧ AnswersIllegal (.wrreg (bits w 16 4) (bits w 0 16)) := by
  have hhead : w.toNat / 2 ^ 24 = 0x51 ↔ (bits w 28 4).toNat = 5 ∧ (bits w 24 4).toNat = 1 := by
    rw [toNat_bits_op, toNat_bits]
    omega
  rw [illegalWrreg, hhead, ← wrregIllegal_bits, and_assoc]
  rfl

/-- Format R (spec/30_encoding.md R87, R88): the one group whose commands can answer ILLEGAL of themselves. -/
theorem decodeR_readsIllegal (w : Word) :
    ReadsIllegal (decodeR w) ↔
      BreaksRow 5 (bits w 24 4).toNat w ∨
        ((bits w 24 4).toNat = 1 ∧ AnswersIllegal (.wrreg (bits w 16 4) (bits w 0 16))) := by
  have hsub := (bits w 24 4).isLt
  unfold decodeR
  generalize (bits w 24 4).toNat = sub at hsub ⊢
  by_cases hwrreg : sub = 1
  · subst hwrreg
    rw [breaksRow_iff w [(20, 4)] rfl, ← imp_iff_not_or, and_iff_right rfl]
    exact readsIllegal_whenZero _ _
  · rw [or_iff_left (fun h => hwrreg h.1)]
    interval_cases sub
    · exact readsIllegal_row [(20, 4), (0, 16)] rfl nofun
    · exact absurd rfl hwrreg
    · exact readsIllegal_clrst w
    all_goals exact readsIllegal_reserved rfl

/-! ### Illegal words -/

/-- In the groups from 2 on a word is illegal when it breaks its row or is an illegal WRREG. -/
theorem illegalWord_of_two_le {w : Word} {op : Nat} (hop : (bits w 28 4).toNat = op) (h : 2 ≤ op) :
    IllegalWord w ↔
      BreaksRow op (bits w 24 4).toNat w ∨
        (op = 5 ∧ (bits w 24 4).toNat = 1 ∧ AnswersIllegal (.wrreg (bits w 16 4) (bits w 0 16))) := by
  have hwrreg := illegalWrreg_iff w
  rw [hop] at hwrreg
  rw [toNat_bits_op] at hop
  have hsub : (bits w 24 4).toNat = w.toNat / 2 ^ 24 % 16 := toNat_bits w 24 4
  rw [← hwrreg, hsub, BreaksRow]
  unfold IllegalWord
  rw [hop]
  split
  · omega
  · omega
  · split
    next hrow => simp only [hrow, reduceCtorEq, false_imp_iff, implies_true, true_or]
    next m hrow => simp only [hrow, Option.some.injEq, forall_eq']

/-- Group 0 holds one legal word (spec/30_encoding.md R82). -/
theorem illegalWord_of_op_zero {w : Word} (hop : (bits w 28 4).toNat = 0) : IllegalWord w ↔ w ≠ 0#32 := by
  rw [toNat_bits_op] at hop
  simp only [IllegalWord, hop]

/-- Every word of group 1 is legal (spec/30_encoding.md R83). -/
theorem not_illegalWord_of_op_one {w : Word} (hop : (bits w 28 4).toNat = 1) : ¬IllegalWord w := by
  rw [toNat_bits_op] at hop
  simp only [IllegalWord, hop, not_false_eq_true]

/-- The illegal words of spec/30_encoding.md R89 are those the decoder refuses and those whose command answers ILLEGAL of
itself. -/
theorem illegalWord_iff (w : Word) : IllegalWord w ↔ ReadsIllegal (decode w) := by
  have hlt := (bits w 28 4).isLt
  obtain ⟨op, hop⟩ : ∃ op, (bits w 28 4).toNat = op := ⟨_, rfl⟩
  rw [hop] at hlt
  simp only [decode, hop]
  interval_cases op
  · rw [illegalWord_of_op_zero hop]
    by_cases hw : w = 0#32
    · simp only [if_pos hw]
      exact iff_of_false (not_not_intro hw) ((readsIllegal_ok .nop).not.mpr nofun)
    · simp only [if_neg hw]
      exact iff_of_true hw (readsIllegal_error _)
  · exact iff_of_false (not_illegalWord_of_op_one hop) ((readsIllegal_ok (.pulse _ _)).not.mpr nofun)
  · rw [illegalWord_of_two_le hop (by omega), or_iff_left nofun]
    exact (decodeK_readsIllegal w).symm
  · rw [illegalWord_of_two_le hop (by omega), or_iff_left nofun]
    exact (decodeD_readsIllegal w).symm
  · rw [illegalWord_of_two_le hop (by omega), or_iff_left nofun]
    exact (decodeT_readsIllegal w).symm
  · rw [illegalWord_of_two_le hop (by omega), and_iff_right rfl]
    exact (decodeR_readsIllegal w).symm
  all_goals
    rw [illegalWord_of_two_le hop (by omega)]
    exact iff_of_true (.inl (breaksRow_of_reserved w rfl)) (readsIllegal_error _)

/-- Settles O4: a word is illegal exactly when the decoder refuses it or its command answers ILLEGAL of itself
(`illegalWord_iff`); both end in `raise .illegal` on the sampled state, and every other command ends with another status. -/
theorem illegalWordsAnsweredIllegal : Obligations.IllegalWordsAnsweredIllegal := by
  intro s c rest hin
  by_cases hill : IllegalWord c.word
  · have hstep : step s = (s.sample c rest).raise .illegal := by
      have hreads := (illegalWord_iff c.word).mp hill
      cases hdec : decode c.word with
      | error e => simp only [step, hin, hdec]
      | ok i => exact (step_of_decode_ok hin hdec).trans (exec_of_answersIllegal _ (hreads i hdec))
    exact ⟨_, hstep, iff_of_true rfl hill, fun _ => rfl⟩
  · have hreads := mt (illegalWord_iff c.word).mpr hill
    simp only [ReadsIllegal, not_forall] at hreads
    obtain ⟨i, hdec, hi⟩ := hreads
    obtain ⟨t, ht, hst⟩ := exec_nextNotIllegal (s.sample c rest) hi
    exact ⟨t, (step_of_decode_ok hin hdec).trans ht, iff_of_false hst hill, fun h => absurd h hill⟩

end Sys2Proof.Machine

/-! PROOFS. The pulse decoder (spec/41_pulse_codec.md R101 to R111): what one record does, phase by phase, as the states of
Safety.lean say it. -/

namespace Sys2Proof.Machine

/-! ### From the outcome of a record to the state after PULSE -/

/-- The state PULSE leaves for an outcome of the decoder: the outcome's state with the reply of spec/41_pulse_codec.md R102. -/
def PulseOut.answer (o : PulseOut) : State :=
  { o.state with rsp := pulseReply o.state.dec.phase o.cause o.ev.code.toNat }

/-- The fields of the response word of PULSE do not overlap, so it is their sum. -/
theorem pulseWord_eq (ph : Phase) (c : Cause) (ev : Event) : pulseWord ph c ev = (pulseReply ph c ev.code.toNat).data := by
  cases ph <;> cases c <;> cases ev <;> rfl

theorem exec_pulse (l : Level) (d : Duration) (s : State) : exec (.pulse l d) s = .next (s.pulse l d).answer := by
  simp only [exec, execPulse, pulseWord_eq]
  rfl

/-! ### What the decoder does in each phase -/

/-- The statements compare durations as numbers, the decoder as words. -/
theorem not_lt_of_toNat_le {m d : Duration} (h : m.toNat ≤ d.toNat) : ¬d < m := Nat.not_lt.mpr h

section

variable {s : State} {l : Level} {d : Duration}

theorem pulse_of_glitch (hd : d.toNat < s.params.thresh.toNat) : s.pulse l d = s.pulseGlitch := if_pos hd

theorem pulse_idle (hd : s.params.thresh.toNat ≤ d.toNat) (hph : s.dec.phase = .idle) :
    s.pulse l d = s.pulseIdle l d := by
  simp only [State.pulse, if_neg (not_lt_of_toNat_le hd), hph]

theorem pulse_headHigh (hd : s.params.thresh.toNat ≤ d.toNat) (hph : s.dec.phase = .headHigh) :
    s.pulse l d = s.pulseHeadHigh l d := by
  simp only [State.pulse, if_neg (not_lt_of_toNat_le hd), hph]

theorem pulse_bitLow (hd : s.params.thresh.toNat ≤ d.toNat) (hph : s.dec.phase = .bitLow) :
    s.pulse l d = s.pulseBitLow l d := by
  simp only [State.pulse, if_neg (not_lt_of_toNat_le hd), hph]

theorem pulse_bitHigh (hd : s.params.thresh.toNat ≤ d.toNat) (hph : s.dec.phase = .bitHigh) :
    s.pulse l d = s.pulseBitHigh l d := by
  simp only [State.pulse, if_neg (not_lt_of_toNat_le hd), hph]

theorem pulseGlitch_of_idle (hph : s.dec.phase = .idle) :
    s.pulseGlitch = { state := s, ev := .ignored, cause := .none } := by
  simp only [State.pulseGlitch, hph]

theorem pulseGlitch_of_ne_idle (hph : s.dec.phase ≠ .idle) : s.pulseGlitch = s.abort .glitch := by
  unfold State.pulseGlitch
  split
  next hidle => exact absurd hidle hph
  all_goals rfl

theorem pulseIdle_of_starts (h : l = .low ∧ InWindow s d s.params.hdrLow) : s.pulseIdle l d = s.advance .headHigh :=
  if_pos ((startsFrame_iff s l d).mpr h)

theorem pulseIdle_of_not_starts (h : ¬(l = .low ∧ InWindow s d s.params.hdrLow)) :
    s.pulseIdle l d = { state := s, ev := .ignored, cause := .none } :=
  if_neg (mt (startsFrame_iff s l d).mp h)

theorem pulseHeadHigh_of_inWindow (h : InWindow s d s.params.hdrHigh) :
    s.pulseHeadHigh .high d =
      { state := { s with dec := { s.dec with phase := .bitLow, tbits := 0#16, sr := 0#8 } }
        ev := .accepted
        cause := .none } :=
  if_pos ((inWin_iff s d _).mpr h)

theorem pulseHeadHigh_of_not_inWindow (h : ¬InWindow s d s.params.hdrHigh) :
    s.pulseHeadHigh .high d = s.abortReeval .window .high d :=
  if_neg (mt (inWin_iff s d _).mp h)

theorem pulseBitLow_of_inWindow (h : InWindow s d s.params.bitLow) : s.pulseBitLow .low d = s.advance .bitHigh :=
  if_pos ((inWin_iff s d _).mpr h)

theorem pulseBitLow_of_not_inWindow (h : ¬InWindow s d s.params.bitLow) :
    s.pulseBitLow .low d = s.abortReeval .window .low d :=
  if_neg (mt (inWin_iff s d _).mp h)

theorem pulseBitLow_of_endGap_lt (h : s.params.endGap.toNat < d.toNat) : s.pulseBitLow .high d = s.complete := if_pos h

theorem pulseBitLow_of_le_endGap (h : d.toNat ≤ s.params.endGap.toNat) :
    s.pulseBitLow .high d = s.abortReeval .level .high d :=
  if_neg (not_lt_of_toNat_le h)

theorem pulseBitHigh_of_zero (h : InWindow s d s.params.zeroHigh) : s.pulseBitHigh .high d = s.takeBit false :=
  if_pos ((inWin_iff s d _).mpr h)

theorem pulseBitHigh_of_one (h0 : ¬InWindow s d s.params.zeroHigh) (h1 : InWindow s d s.params.oneHigh) :
    s.pulseBitHigh .high d = s.takeBit true := by
  rw [← inWin_iff] at h0 h1
  rw [State.pulseBitHigh, if_neg h0, if_pos h1]

/-- A high record of phase BIT_HIGH that is no bit ends the frame or aborts it, by its length (spec/41_pulse_codec.md R107). -/
theorem pulseBitHigh_of_no_bit (h0 : ¬InWindow s d s.params.zeroHigh) (h1 : ¬InWindow s d s.params.oneHigh) :
    s.pulseBitHigh .high d = if s.params.endGap < d then s.complete else s.abortReeval .window .high d := by
  rw [← inWin_iff] at h0 h1
  rw [State.pulseBitHigh, if_neg h0, if_neg h1]

end

/-! ### The outcomes as Safety.lean says them -/

theorem ignored_answer (s : State) :
    PulseOut.answer { state := s, ev := .ignored, cause := .none } = { s with rsp := pulseReply s.dec.phase .none 0 } := rfl

theorem advance_answer (s : State) (ph : Phase) :
    (s.advance ph).answer = { s with dec := { s.dec with phase := ph }, rsp := pulseReply ph .none 1 } := rfl

theorem abort_answer (s : State) (c : Cause) : (s.abort c).answer = abortedState s c .idle := rfl

/-- `abort(c); reeval(L, D)` (spec/41_pulse_codec.md R111). -/
theorem abortReeval_answer (s : State) (c : Cause) (l : Level) (d : Duration) :
    AbortsAndReexamines s (s.abortReeval c l d).answer c l d := by
  obtain ⟨hst, hstarts⟩ | ⟨hst, hnot⟩ := abortReeval_state s c l d
  · refine ⟨fun _ => ?_, fun hnot => absurd hstarts hnot⟩
    rw [PulseOut.answer, hst]
    rfl
  · refine ⟨fun hstarts => absurd hstarts hnot, fun _ => ?_⟩
    rw [PulseOut.answer, hst]
    rfl

/-- A bit count below its greatest value counts one more bit without wrapping. -/
theorem toNat_add_one_of_ne_max {n : Half} (h : n ≠ 0xFFFF#16) : (n + 1#16).toNat = n.toNat + 1 := by
  bv_omega

/-- `take_bit(b)` (spec/41_pulse_codec.md R108), for a byte buffer of CAP bytes. -/
theorem takeBit_answer (s : State) (b : Bool) (habuf : s.dec.abuf.length = s.params.cap) :
    TakesBit s (s.takeBit b).answer b := by
  obtain ⟨hmax, htoo⟩ | ⟨hmax, abuf, hlen, hst, hev, hcause, hread⟩ := takeBit_cases s b
  · refine ⟨fun _ => ?_, fun h => absurd hmax h⟩
    rw [htoo, abort_answer]
  · have hanswer : (s.takeBit b).answer =
        { s with
          dec := { phase := .bitLow, tbits := s.dec.tbits + 1#16, sr := shiftIn s.dec.sr b, abuf := abuf }
          rsp := pulseReply .bitLow .none 1 } := by
      rw [PulseOut.answer, hst, hev, hcause]
      rfl
    rw [hanswer]
    refine ⟨fun h => absurd h hmax, fun _ =>
      ⟨rfl, rfl, toNat_add_one_of_ne_max hmax, toNat_shiftIn _ _, hlen, fun i hi => ?_⟩⟩
    rw [hread i (habuf ▸ hi)]
    simp only [hi, and_true]

/-- What `RXP` holds after a delivery of `n` bytes: the received bytes as far as they fit, the bytes above them as before
(spec/41_pulse_codec.md R109). -/
theorem delivered_data (s : State) (n : Nat) (hrxp : s.rxp.data.length = s.params.cap) :
    (s.delivered n).data.length = s.rxp.data.length ∧
      ∀ i < s.params.cap,
        readByte (s.delivered n).data i = if i < n then readByte s.dec.abuf i else readByte s.rxp.data i := by
  refine ⟨length_copyBytes _ _ _, fun i hi => ?_⟩
  rw [State.delivered, readByte_copyBytes _ _ _ _ (hrxp ▸ hi)]
  simp only [lt_min_iff, hi, and_true]

/-- The length of a delivered packet fits its 8 bits, since CAP does (spec/00_scope.md R6). -/
theorem toNat_delivered_len (s : State) (n : Nat) (hcap : s.params.cap ≤ 255) :
    (s.delivered n).len.toNat = min n s.params.cap := by
  have hmin : min n s.params.cap < 2 ^ 8 := by omega
  rw [State.delivered, BitVec.toNat_ofNat, Nat.mod_eq_of_lt hmin]

/-- `complete()` (spec/41_pulse_codec.md R109). -/
theorem complete_answer (s : State) (hi : s.Inv) : EndsFrame s s.complete.answer := by
  have hzero : s.dec.tbits = 0#16 ↔ s.dec.tbits.toNat = 0 := BitVec.toNat_eq
  obtain ⟨hempty, hout⟩ | ⟨hne, hpartial, hout⟩ | ⟨hne, hwhole, hout⟩ := complete_cases s
  · rw [hzero] at hempty
    rw [hout, abort_answer]
    exact ⟨fun _ => rfl, fun h => absurd (by rw [hempty]) h, fun h => absurd hempty h⟩
  · rw [hout, abort_answer]
    exact ⟨fun h => absurd (hzero.mpr h) hne, fun _ => rfl, fun _ h => absurd h hpartial⟩
  · rw [hout]
    refine ⟨fun h => absurd (hzero.mpr h) hne, fun h => absurd hwhole h, fun _ _ => ⟨rfl, ?_, ?_, rfl, rfl, ?_, ?_⟩⟩
    · simp [PulseOut.answer]
    · exact toNat_delivered_len s _ hi.params_legal.1.2
    · exact decide_eq_true_iff
    · exact delivered_data s _ hi.rxp_ok.1

/-! ### The statements -/

/-- Settles O22: a glitch is ignored in IDLE and aborts, with no re-examination, in the other phases. -/
theorem glitchPulse : Obligations.GlitchPulse := by
  intro l d s hd
  rw [exec_pulse, pulse_of_glitch hd]
  refine ⟨fun hidle => ?_, fun hidle => ?_⟩
  · rw [pulseGlitch_of_idle hidle, ignored_answer, hidle]
  · rw [pulseGlitch_of_ne_idle hidle, abort_answer]

/-- Settles O23: `State.pulseIdle` by whether the record starts a frame. -/
theorem idlePulse : Obligations.IdlePulse := by
  intro l d s hph hd
  rw [exec_pulse, pulse_idle hd hph]
  refine ⟨fun hstarts => ?_, fun hnot => ?_⟩
  · rw [pulseIdle_of_starts hstarts, advance_answer]
  · rw [pulseIdle_of_not_starts hnot, ignored_answer, hph]

/-- Settles O24: `State.pulseHeadHigh` by the level and the heading-high window. -/
theorem headHighPulse : Obligations.HeadHighPulse := by
  intro l d s hph hd
  refine ⟨_, exec_pulse l d s, ?_⟩
  rw [pulse_headHigh hd hph]
  refine ⟨?_, ?_, ?_⟩
  · rintro rfl hwin
    rw [pulseHeadHigh_of_inWindow hwin]
    rfl
  · rintro rfl
    exact abortReeval_answer s .level .low d
  · rintro rfl hwin
    rw [pulseHeadHigh_of_not_inWindow hwin]
    exact abortReeval_answer s .window .high d

/-- Settles O25: `State.pulseBitLow` by the level, the bit-low window and the end gap; the end of the frame is
`complete_answer`. -/
theorem bitLowPulse : Obligations.BitLowPulse := by
  intro l d s hi hph hd
  refine ⟨_, exec_pulse l d s, ?_⟩
  rw [pulse_bitLow hd hph]
  refine ⟨?_, ?_, ?_, ?_⟩
  · rintro rfl hwin
    rw [pulseBitLow_of_inWindow hwin, advance_answer]
  · rintro rfl hwin
    rw [pulseBitLow_of_not_inWindow hwin]
    exact abortReeval_answer s .window .low d
  · rintro rfl hend
    rw [pulseBitLow_of_endGap_lt hend]
    exact complete_answer s hi
  · rintro rfl hend
    rw [pulseBitLow_of_le_endGap hend]
    exact abortReeval_answer s .level .high d

/-- Settles O26: `State.pulseBitHigh` in its priority order; the bits are `takeBit_answer`, the end of the frame
`complete_answer`. -/
theorem bitHighPulse : Obligations.BitHighPulse := by
  intro l d s hi hph hd
  refine ⟨_, exec_pulse l d s, ?_⟩
  rw [pulse_bitHigh hd hph]
  refine ⟨?_, ?_, ?_, ?_⟩
  · rintro rfl
    exact abortReeval_answer s .level .low d
  · rintro rfl hzero
    rw [pulseBitHigh_of_zero hzero]
    exact takeBit_answer s false hi.abuf_length
  · rintro rfl hzero hone
    rw [pulseBitHigh_of_one hzero hone]
    exact takeBit_answer s true hi.abuf_length
  · rintro rfl hzero hone
    rw [pulseBitHigh_of_no_bit hzero hone]
    refine ⟨fun hend => ?_, fun hend => ?_⟩
    · rw [if_pos (BitVec.lt_def.mpr hend)]
      exact complete_answer s hi
    · rw [if_neg (not_lt_of_toNat_le hend)]
      exact abortReeval_answer s .window .high d

end Sys2Proof.Machine

/-! PROOFS. The pulse encoder (spec/41_pulse_codec.md R114 to R118): the records of a byte sequence one by one, and the commands
ENC, TXPOP and TXABORT. -/

namespace Sys2Proof.Machine

/-! ### The record at each index -/

section

variable (p : Params) (n : Nat) (b : List Byte)

theorem recAt_zero : recAt p n b 0 = (.low, p.hdrLow) := rfl

theorem recAt_one : recAt p n b 1 = (.high, p.hdrHigh) := rfl

/-- The first record of bit `m` of byte `i`. -/
theorem recAt_bitLow {i m : Nat} (hi : i < n) (hm : m < 8) : recAt p n b (2 + 16 * i + 2 * m) = (.low, p.bitLow) := by
  rw [recAt, if_neg (by omega), if_neg (by omega), if_pos (by omega), if_pos (by omega)]

/-- The second record of bit `m` of byte `i` says the bit. -/
theorem recAt_bitHigh {i m : Nat} (hi : i < n) (hm : m < 8) :
    recAt p n b (2 + 16 * i + 2 * m + 1) =
      (.high, if (readByte b i).getLsbD (7 - m) then p.oneHigh else p.zeroHigh) := by
  have hbit : (2 + 16 * i + 2 * m + 1 - 2) / 2 = 8 * i + m := by omega
  have hbyte : (8 * i + m) / 8 = i := by omega
  have hpos : (8 * i + m) % 8 = m := by omega
  rw [recAt, if_neg (by omega), if_neg (by omega), if_pos (by omega), if_neg (by omega), hbit, wireBit, hbyte, hpos]

theorem recAt_trail : recAt p n b (2 + 16 * n) = (.low, p.trailLow) := by
  rw [recAt, if_neg (by omega), if_neg (by omega), if_neg (by omega), if_pos rfl]

theorem recAt_gap : recAt p n b (3 + 16 * n) = (.high, p.txGap) := by
  rw [recAt, if_neg (by omega), if_neg (by omega), if_neg (by omega), if_neg (by omega)]

end

/-- A bit of a byte by division, as spec/20_memory.md R62 numbers it. -/
theorem getLsbD_iff_div_mod (x : Byte) (j : Nat) : x.getLsbD j = true ↔ x.toNat / 2 ^ j % 2 = 1 := by
  rw [← BitVec.testBit_toNat, Nat.testBit_eq_decide_div_mod_eq, decide_eq_true_iff]

/-- Settles O28: each index is below the length of the list, and the record there is one of the `recAt` laws. -/
theorem recordList : Obligations.RecordList := by
  intro p b k
  have hget : ∀ {j r}, j < recCount b.length → recAt p b.length b j = r → (records p b)[j]? = some r :=
    fun hj hr => hr ▸ getElem?_records p b _ hj
  simp only [recCount] at hget
  refine ⟨length_records p b, ?_, ?_, ?_, ?_, ?_⟩
  · rintro rfl
    exact hget (by omega) (recAt_zero p _ b)
  · rintro rfl
    exact hget (by omega) (recAt_one p _ b)
  · intro i x m hx hm
    obtain ⟨hi, hbi⟩ := List.getElem?_eq_some_iff.mp hx
    have hread : readByte b i = x := by simp [readByte, hx]
    refine ⟨?_, ?_⟩
    · rintro rfl
      exact hget (by omega) (recAt_bitLow p _ b hi hm)
    · rintro rfl
      refine hget (by omega) ?_
      simp only [recAt_bitHigh p _ b hi hm, hread, getLsbD_iff_div_mod]
  · rintro rfl
    exact hget (by omega) (recAt_trail p _ b)
  · rintro rfl
    exact hget (by omega) (recAt_gap p _ b)

/-! ### ENC -/

theorem exec_enc_of_active {s : State} (p : PktSel) (hact : s.enc.active = true) : exec (.enc p) s = s.raise .busy :=
  if_pos hact

theorem exec_enc_of_idle {s : State} (p : PktSel) (hidle : s.enc.active = false) :
    exec (.enc p) s =
      State.respond
        { s with
          enc :=
            { active := true
              cursor := 0#16
              total := BitVec.ofNat 16 (recCount (s.pkt p).len.toNat)
              txn := (s.pkt p).len
              txbuf := copyBytes (s.pkt p).len.toNat (s.pkt p).data s.enc.txbuf } }
        ((BitVec.ofNat 16 (recCount (s.pkt p).len.toNat)).setWidth 32) :=
  if_neg (Bool.not_eq_true _ ▸ hidle)

/-- The number of records of a packet fits its 16 bits, whatever the packet's length. -/
theorem toNat_recCount (n : Byte) : (BitVec.ofNat 16 (recCount n.toNat)).toNat = 16 * n.toNat + 4 := by
  have hn := n.isLt
  rw [BitVec.toNat_ofNat, recCount]
  omega

/-- Settles O31: ENC is refused while a frame is being sent, and else copies the packet's bytes, all of which TXBUF can hold. -/
theorem encSnapshotsPacket : Obligations.EncSnapshotsPacket := by
  intro p s hi
  refine ⟨by cases p <;> rfl, fun hact => ?_, fun hidle => ?_⟩
  · rw [exec_enc_of_active p hact]
    exact ⟨_, rfl, rfl⟩
  · rw [exec_enc_of_idle p hidle]
    refine ⟨_, rfl, rfl, rfl, rfl, rfl, toNat_recCount _, length_copyBytes _ _ _, fun i hlt => ?_⟩
    have hfits : i < s.enc.txbuf.length := hi.txbuf_length ▸ hlt.trans_le (hi.pkt_ok p).2
    exact (readByte_copyBytes _ _ _ i hfits).trans (if_pos hlt)

/-! ### TXPOP -/

section

variable {s : State}

theorem exec_txpop_of_idle (hidle : s.enc.active = false) : exec .txpop s = s.respond 0#32 :=
  if_neg (Bool.not_eq_true _ ▸ hidle)

theorem exec_txpop_of_last (hact : s.enc.active = true) (hlast : s.enc.cursor + 1#16 = s.enc.total) :
    exec .txpop s = s.stopTx.respond s.nextRecord := by
  simp only [exec, execTxpop, if_pos hact, if_pos hlast]

theorem exec_txpop_of_more (hact : s.enc.active = true) (hmore : s.enc.cursor + 1#16 ≠ s.enc.total) :
    exec .txpop s =
      State.respond { s with enc := { s.enc with cursor := s.enc.cursor + 1#16 } } s.nextRecord := by
  simp only [exec, execTxpop, if_pos hact, if_neg hmore]

/-- The cursor of a frame being sent is below `total`, so it advances without wrapping (spec/10_state.md R40). -/
theorem toNat_cursor_add_one (hi : s.Inv) (hact : s.enc.active = true) :
    (s.enc.cursor + 1#16).toNat = s.enc.cursor.toNat + 1 := by
  have hlt := (hi.tx_active hact).1
  have htotal := s.enc.total.isLt
  rw [BitVec.toNat_add]
  simp only [BitVec.toNat_ofNat]
  omega

/-- The record at the cursor is in the record list of the snapshot, the first `txn` bytes of TXBUF. -/
theorem getElem?_records_snapshot (hi : s.Inv) (hact : s.enc.active = true) :
    (records s.params (s.enc.txbuf.take s.enc.txn.toNat))[s.enc.cursor.toNat]? =
      some (recAt s.params s.enc.txn.toNat s.enc.txbuf s.enc.cursor.toNat) := by
  obtain ⟨hcursor, htotal⟩ := hi.tx_active hact
  have hlen : (s.enc.txbuf.take s.enc.txn.toNat).length = s.enc.txn.toNat :=
    List.length_take_of_le (hi.txbuf_length ▸ hi.txn_le)
  have hin : s.enc.cursor.toNat < recCount (s.enc.txbuf.take s.enc.txn.toNat).length := by
    rw [hlen, recCount]
    omega
  rw [getElem?_records _ _ _ hin, hlen, recAt_congr _ _ _ s.enc.txbuf _ fun i h => readByte_take _ _ i h]

end

/-- A format P word with its fields written out (spec/30_encoding.md R83, spec/41_pulse_codec.md R116). -/
theorem formatP_eq (l : Level) (d : Duration) :
    formatP l d = 0x10000000#32 ||| l.bit.setWidth 32 <<< 27 ||| d.setWidth 32 := by
  rw [formatP, fld, fld, fld, BitVec.shiftLeft_zero]
  rfl

/-- Settles O32: the answer is the record at the cursor (`getElem?_records_snapshot`), and the encoder goes on or stops as the
cursor reaches `total`. -/
theorem txpopAnswersNextRecord : Obligations.TxpopAnswersNextRecord := by
  intro s hi
  refine ⟨rfl, fun hidle => ?_, fun hact => ?_⟩
  · rw [exec_txpop_of_idle hidle]
    exact ⟨_, rfl, rfl⟩
  · have hrec := getElem?_records_snapshot hi hact
    have hnext := toNat_cursor_add_one hi hact
    have hend : s.enc.cursor + 1#16 = s.enc.total ↔ s.enc.cursor.toNat + 1 = s.enc.total.toNat := by
      rw [BitVec.toNat_eq, hnext]
    by_cases hlast : s.enc.cursor + 1#16 = s.enc.total
    · refine ⟨_, _, _, exec_txpop_of_last hact hlast, hrec, ?_, rfl, fun hlt => ?_, fun _ => rfl⟩
      · rw [← formatP_eq]
        rfl
      · exact absurd (hend.mp hlast) hlt.ne
    · refine ⟨_, _, _, exec_txpop_of_more hact hlast, hrec, ?_, rfl, fun _ => ⟨rfl, hnext⟩, fun h => ?_⟩
      · rw [← formatP_eq]
        rfl
      · exact absurd (hend.mpr h) hlast

/-! ### TXABORT -/

theorem exec_txabort (s : State) : exec .txabort s = s.stopTx.respond 0#32 := rfl

/-- Settles O33: TXABORT stops the encoder (`exec_txabort`), and TXPOP answers 0 from an idle encoder
(`exec_txpop_of_idle`). -/
theorem txabortIdlesEncoder : Obligations.TxabortIdlesEncoder := by
  intro s
  have habort : exec .txabort s = .next (s.stopTx.withRsp .ok 0#32) := exec_txabort s
  have hpop : exec .txpop (s.stopTx.withRsp .ok 0#32) = .next ((s.stopTx.withRsp .ok 0#32).withRsp .ok 0#32) :=
    exec_txpop_of_idle rfl
  rw [execAll_cons habort, execAll_cons hpop]
  exact ⟨rfl, habort, _, rfl, rfl⟩

end Sys2Proof.Machine

/-! PROOFS. The packet framer (spec/42_packet_framer.md R140 to R161): what one command does to the packet register it names,
what the checksum reductions compute, and the fields of the answers. -/

namespace Sys2Proof.Machine

/-! ### The command words of the framer -/

/-- A format K word with its operand fields shifted into place (spec/30_encoding.md R84). -/
theorem formatK_eq (sub : BitVec 4) (p : PktSel) (src : BitVec 2) (idx val : Byte) :
    formatK sub p src idx val =
      (fld 0x2#4 28 ||| fld sub 24) ||| p.bit.setWidth 32 <<< 23 ||| src.setWidth 32 <<< 16 |||
        idx.setWidth 32 <<< 8 ||| val.setWidth 32 := by
  simp only [formatK, fld, BitVec.shiftLeft_zero]

/-- A format K word whose only operand is the packet register. -/
theorem formatK_pkt (sub : BitVec 4) (p : PktSel) :
    formatK sub p 0#2 0#8 0#8 = (fld 0x2#4 28 ||| fld sub 24) ||| p.bit.setWidth 32 <<< 23 := by
  simp [formatK_eq]

/-! ### What a framer command runs -/

section

variable (p : PktSel) (s : State)

/-- The packet register after a command that sets it. -/
theorem pkt_setPkt_withRsp (q : Packet) (st : Status) (d : Word) :
    ((s.setPkt p q).withRsp st d).pkt p = q := by
  simp

theorem exec_pnew (src : Source) :
    exec (.pnew p src) s =
      .next ((s.setPkt p { s.pkt p with len := 0#8, ovf := false, time := s.nowMs, src := src }).withRsp .ok 0#32) :=
  rfl

theorem exec_push (val : Byte) :
    exec (.push p val) s = .next ((s.setPkt p ((s.pkt p).push s.params.cap val)).withRsp .ok 0#32) :=
  rfl

theorem exec_pinfo : exec (.pinfo p) s = .next (s.withRsp .ok (pinfoWord s.params s.alg (s.pkt p))) := rfl

theorem exec_ptime : exec (.ptime p) s = .next (s.withRsp .ok (s.pkt p).time) := rfl

theorem exec_page : exec (.page p) s = .next (s.withRsp .ok (s.nowMs - (s.pkt p).time)) := rfl

theorem exec_brev : exec (.brev p) s = .next ((s.setPkt p ((s.pkt p).mapData rev8)).withRsp .ok 0#32) := rfl

theorem exec_ckgen (inverted : Bool) :
    exec (.ckgen p inverted) s = .next ((s.setPkt p ((s.pkt p).seal s.alg inverted)).withRsp .ok 0#32) :=
  rfl

theorem exec_ckcalc : exec (.ckcalc p) s = .next (s.withRsp .ok ((ck s.alg (s.pkt p)).setWidth 32)) := rfl

theorem exec_pcopy : exec (.pcopy p) s = .next ((s.setPkt p (s.pkt p.other)).withRsp .ok 0#32) := rfl

/-! The byte commands, by where the index stands (spec/20_memory.md R65). -/

variable {s} {idx : Byte}

theorem idxOut_of_ge (h : s.params.cap ≤ idx.toNat) : s.idxOut idx = true := decide_eq_true h

theorem not_idxOut_of_lt (h : idx.toNat < s.params.cap) : ¬s.idxOut idx = true := by
  simpa [State.idxOut] using h

theorem exec_wrb_of_ge (val : Byte) (h : s.params.cap ≤ idx.toNat) :
    exec (.wrb p idx val) s = .next (s.withRsp .range 0#32) :=
  if_pos (idxOut_of_ge h)

theorem exec_wrb_of_lt (val : Byte) (h : idx.toNat < s.params.cap) :
    exec (.wrb p idx val) s =
      .next ((s.setPkt p { s.pkt p with data := writeByte (s.pkt p).data idx.toNat val }).withRsp .ok 0#32) :=
  if_neg (not_idxOut_of_lt h)

theorem exec_rdb_of_ge (h : s.params.cap ≤ idx.toNat) : exec (.rdb p idx) s = .next (s.withRsp .range 0#32) :=
  if_pos (idxOut_of_ge h)

theorem exec_rdb_of_lt (h : idx.toNat < s.params.cap) : exec (.rdb p idx) s = s.respondByte (s.pkt p) idx :=
  if_neg (not_idxOut_of_lt h)

end

/-! ### Starting and copying a packet, and its time -/

/-- Settles O35: the register is set as `exec_pnew` says, its bytes kept. -/
theorem pnewStartsPacket : Obligations.PnewStartsPacket := by
  intro p src s
  have hword : encode (.pnew p src) = 0x20000000#32 ||| p.bit.setWidth 32 <<< 23 ||| src.code.setWidth 32 <<< 16 := by
    simp [encode, formatK_eq, fld]
  exact ⟨hword, _, exec_pnew p s src, onlyPacket_setPkt s p _ _, pkt_setPkt_withRsp p s _ _ _⟩

/-- Settles O47: the register is set to the other one (`exec_pcopy`). -/
theorem pcopyCopiesPacket : Obligations.PcopyCopiesPacket := by
  intro p s
  exact ⟨formatK_pkt _ p, _, exec_pcopy p s, onlyPacket_setPkt s p _ _, pkt_setPkt_withRsp p s _ _ _⟩

/-- A difference of two words as a number: the difference of the numbers modulo `2^32` (spec/00_scope.md R8). -/
theorem toNat_sub_eq_emod (x y : Word) : ((x - y).toNat : Int) = ((x.toNat : Int) - (y.toNat : Int)) % 2 ^ 32 := by
  have hx := x.isLt
  have hy := y.isLt
  rw [BitVec.toNat_sub]
  omega

/-- Settles O40: the age is a difference of words (`toNat_sub_eq_emod`). -/
theorem ptimeAndPage : Obligations.PtimeAndPage := by
  intro p s
  exact ⟨formatK_pkt _ p, formatK_pkt _ p, ⟨_, exec_ptime p s, rfl⟩, _, exec_page p s, rfl, toNat_sub_eq_emod _ _⟩

/-! ### The bytes of a packet -/

/-- Settles O36: the two branches of `Packet.push`; below CAP the new byte's index is in the array and `len` does not wrap. -/
theorem pushAppendsByte : Obligations.PushAppendsByte := by
  intro p val s hi
  obtain ⟨hdata, -⟩ := hi.pkt_ok p
  have hcap : s.params.cap ≤ 255 := hi.params_legal.1.2
  have hword : encode (.push p val) = 0x21000000#32 ||| p.bit.setWidth 32 <<< 23 ||| val.setWidth 32 := by
    simp [encode, formatK_eq, fld]
  refine ⟨hword, _, exec_push p s val, onlyPacket_setPkt s p _ _, ?_⟩
  rw [pkt_setPkt_withRsp]
  refine ⟨fun hroom => ?_, fun hfull => push_of_ge _ _ _ hfull⟩
  rw [push_of_lt _ _ _ hroom]
  exact ⟨toNat_len_add_one _ _ hcap hroom, rfl, rfl, rfl, length_writeByte _ _ _,
    fun i => readByte_writeByte _ _ _ _ (hdata ▸ hroom)⟩

/-- Settles O37: an index below CAP is in the array, so the write reaches its byte. -/
theorem wrbWritesByte : Obligations.WrbWritesByte := by
  intro p idx val s hi
  obtain ⟨hdata, -⟩ := hi.pkt_ok p
  refine ⟨by simp [encode, formatK_eq, fld], fun hout => ⟨_, exec_wrb_of_ge p val hout, rfl⟩, fun hin => ?_⟩
  refine ⟨_, exec_wrb_of_lt p val hin, onlyPacket_setPkt s p _ _, ?_⟩
  rw [pkt_setPkt_withRsp]
  exact ⟨⟨length_writeByte _ _ _, rfl, rfl, rfl, rfl⟩, fun i => readByte_writeByte _ _ _ _ (hdata ▸ hin)⟩

/-- Settles O38: below CAP the answer is the one of `respondByte_eq_next`, and a byte below `len` is below CAP. -/
theorem rdbReadsByte : Obligations.RdbReadsByte := by
  intro p idx s hi
  obtain ⟨-, hlen⟩ := hi.pkt_ok p
  refine ⟨by simp [encode, formatK_eq, fld], fun hout => ⟨_, exec_rdb_of_ge p hout, rfl⟩, fun hdef => ?_,
    fun hundef hin => ?_⟩
  · rw [exec_rdb_of_lt p (hdef.trans_le hlen)]
    exact ⟨_, (respondByte_eq_next s _ _ idx).mpr (.inl ⟨hdef, rfl⟩), rfl⟩
  · rw [exec_rdb_of_lt p hin]
    exact ⟨_, (respondByte_eq_next s _ _ idx).mpr (.inr ⟨hundef, rfl⟩), rfl⟩

/-! ### Mapping the bytes of a packet -/

/-- A read after mapping the bytes below `len`. -/
theorem readByte_mapData (f : Byte → Byte) {q : Packet} (hlen : q.len.toNat ≤ q.data.length) (i : Nat) :
    readByte (q.mapData f).data i = if i < q.len.toNat then f (readByte q.data i) else readByte q.data i := by
  by_cases hi : i < q.data.length
  · exact readByte_mapBytes f _ _ i hi
  · have hge : q.data.length ≤ i := Nat.not_lt.mp hi
    rw [if_neg (by omega), readByte_of_ge _ _ hge, readByte_of_ge _ _ (by simpa [Packet.mapData] using hge)]

/-- A command that maps the bytes of a packet register with an involution, run twice, gives the register back. -/
theorem execAll_mapData_twice {i : Instr} {p : PktSel} {f : Byte → Byte} (hf : ∀ x, f (f x) = x)
    (hexec : ∀ s, exec i s = .next ((s.setPkt p ((s.pkt p).mapData f)).withRsp .ok 0#32)) (s : State) :
    ∃ u, execAll [i, i] s = .next u ∧ u.pkt p = s.pkt p := by
  rw [execAll_cons (hexec s), execAll_cons (hexec _)]
  refine ⟨_, rfl, ?_⟩
  rw [pkt_setPkt_withRsp, pkt_setPkt_withRsp, mapData_mapData f hf]

/-- `rev8` moves bit `j` to bit `7 - j` (spec/42_packet_framer.md R145). -/
theorem getLsbD_rev8 (b : Byte) {j : Nat} (hj : j < 8) : (rev8 b).getLsbD (7 - j) = b.getLsbD j := by
  have hback : 8 - 1 - (7 - j) = j := by omega
  have hlt : 7 - j < 8 := by omega
  rw [rev8, BitVec.getLsbD_reverse, BitVec.getMsbD, hback, decide_eq_true hlt, Bool.true_and]

/-- Settles O42: BREV maps the bytes below `len` with `rev8` (`readByte_mapData`), an involution. -/
theorem brevReversesBits : Obligations.BrevReversesBits := by
  intro p s hi
  obtain ⟨hdata, hlen⟩ := hi.pkt_ok p
  refine ⟨formatK_pkt _ p, ⟨_, exec_brev p s, onlyPacket_setPkt s p _ _, ?_⟩,
    execAll_mapData_twice rev8_rev8 (exec_brev p) s⟩
  rw [pkt_setPkt_withRsp]
  refine ⟨mapData_sameMeta rev8 _, fun i => ?_⟩
  rw [readByte_mapData rev8 (hdata ▸ hlen)]
  refine ⟨fun hbelow j hj => ?_, fun habove => if_neg (Nat.not_lt.mpr habove)⟩
  rw [if_pos hbelow, getLsbD_rev8 _ hj]

/-! ### The checksum reductions -/

theorem reduce_nil (a : CkAlg) : reduce a [] = 0#8 := by cases a <;> rfl

theorem toNat_sum8_append (b : List Byte) (x : Byte) : (sum8 (b ++ [x])).toNat = ((sum8 b).toNat + x.toNat) % 256 := by
  simp [sum8]

theorem xor8_append (b : List Byte) (x : Byte) : xor8 (b ++ [x]) = xor8 b ^^^ x := by
  rw [xor8, xor8, List.foldl_append, List.foldl_cons, List.foldl_nil]

/-- A step of `SUM8_EAC` stays a byte, the carry being brought around. -/
theorem eacStep_le {n : Nat} (hn : n ≤ 255) (x : Byte) : eacStep n x ≤ 255 := by
  have hx := x.isLt
  unfold eacStep
  split <;> omega

theorem foldl_eacStep_le {n : Nat} (hn : n ≤ 255) (b : List Byte) : b.foldl eacStep n ≤ 255 := by
  induction b generalizing n with
  | nil => exact hn
  | cons x b ih => exact ih (eacStep_le hn x)

/-- `SUM8_EAC` loses nothing when its running sum becomes a byte. -/
theorem toNat_sum8Eac (b : List Byte) : (sum8Eac b).toNat = b.foldl eacStep 0 := by
  have hle : b.foldl eacStep 0 ≤ 255 := foldl_eacStep_le (Nat.zero_le _) b
  exact Nat.mod_eq_of_lt (Nat.lt_succ_of_le hle)

theorem toNat_sum8Eac_append (b : List Byte) (x : Byte) :
    (sum8Eac (b ++ [x])).toNat = eacStep (sum8Eac b).toNat x := by
  rw [toNat_sum8Eac, toNat_sum8Eac, List.foldl_append, List.foldl_cons, List.foldl_nil]

section

variable {s : State}

theorem alg_of_ckalg_zero (h : s.cfg.extractLsb' 8 2 = 0#2) : s.alg = .sum8 := if_pos h

theorem alg_of_ckalg_one (h : s.cfg.extractLsb' 8 2 = 1#2) : s.alg = .xor8 := by
  simp [State.alg, cfgCkAlg, cfgCkAlgBits, h]

theorem alg_of_ckalg_two (h : s.cfg.extractLsb' 8 2 = 2#2) : s.alg = .sum8Eac := by
  simp [State.alg, cfgCkAlg, cfgCkAlgBits, h]

end

/-- Settles O43: each reduction is a fold over the bytes, so a byte more is a step more; the running sum of `SUM8_EAC` stays
below 256 (`toNat_sum8Eac`). -/
theorem checksumReductions : Obligations.ChecksumReductions :=
  ⟨fun _ => ⟨alg_of_ckalg_zero, alg_of_ckalg_one, alg_of_ckalg_two⟩,
    ⟨reduce_nil _, reduce_nil _, reduce_nil _⟩,
    fun b x => ⟨toNat_sum8_append b x, xor8_append b x, toNat_sum8Eac_append b x⟩⟩

/-! ### The checksum of a packet -/

/-- A packet of at most one byte has no byte before the last (spec/42_packet_framer.md R141). -/
theorem ck_of_len_le_one (a : CkAlg) {q : Packet} (h : q.len.toNat ≤ 1) : ck a q = 0#8 := by
  rw [ck, Nat.sub_eq_zero_of_le h, List.take_zero, reduce_nil]

/-- Settles O44: the answer is `ck` of the reduction that CFG.CKALG selects. -/
theorem ckcalcAnswersChecksum : Obligations.CkcalcAnswersChecksum := by
  intro p s
  have hck {a : CkAlg} (h : s.alg = a) : ck s.alg (s.pkt p) = reduce a ((s.pkt p).data.take ((s.pkt p).len.toNat - 1)) := by
    rw [ck, h]
  exact ⟨formatK_pkt _ p, _, _, exec_ckcalc p s, rfl, fun h => hck (alg_of_ckalg_zero h),
    fun h => hck (alg_of_ckalg_one h), fun h => hck (alg_of_ckalg_two h), ck_of_len_le_one _⟩

section

variable (a : CkAlg) (inverted : Bool) {q : Packet}

theorem seal_of_empty (h : q.len.toNat = 0) : q.seal a inverted = q := if_neg (by omega)

theorem seal_of_nonempty (h : 1 ≤ q.len.toNat) :
    q.seal a inverted =
      { q with data := writeByte q.data (q.len.toNat - 1) (if inverted then ~~~(ck a q) else ck a q) } :=
  if_pos h

@[simp] theorem seal_len : (q.seal a inverted).len = q.len := (seal_sameMeta a inverted q).2.1

/-- Sealing writes no byte but the last. -/
theorem readByte_seal_ne (h : 1 ≤ q.len.toNat) {i : Nat} (hne : i ≠ q.len.toNat - 1) :
    readByte (q.seal a inverted).data i = readByte q.data i := by
  rw [seal_of_nonempty a inverted h]
  exact readByte_writeByte_ne _ _ _ _ hne

/-- The last byte of a sealed packet. -/
theorem lastByte_seal (h : 1 ≤ q.len.toNat) (hlen : q.len.toNat ≤ q.data.length) :
    (q.seal a inverted).lastByte = if inverted then ~~~(ck a q) else ck a q := by
  rw [seal_of_nonempty a inverted h]
  exact (readByte_writeByte _ _ _ _ (by omega)).trans (if_pos rfl)

end

/-- A sealed packet passes the check it was sealed for: its checksum is still the one that was written (`ck_seal`). -/
theorem checksumHolds_seal (s : State) (inverted : Bool) {q : Packet} (h : 1 ≤ q.len.toNat)
    (hlen : q.len.toNat ≤ q.data.length) : ChecksumHolds s (q.seal s.alg inverted) inverted := by
  have hlast := lastByte_seal s.alg inverted h hlen
  cases inverted
  case false =>
    rw [← ckDirect_iff, ckDirect, hlast, ck_seal, seal_len, decide_eq_true h]
    simp
  case true =>
    rw [← ckInv_iff, ckInv, hlast, ck_seal, seal_len, decide_eq_true h]
    simp

/-- Settles O45: the last byte, which alone is written, is in the array, and the packet so sealed passes the check
(`checksumHolds_seal`). -/
theorem ckgenSealsPacket : Obligations.CkgenSealsPacket := by
  intro p inverted s hi
  obtain ⟨hdata, hlen⟩ := hi.pkt_ok p
  have hword : encode (.ckgen p inverted) =
      0x29000000#32 ||| p.bit.setWidth 32 <<< 23 ||| (if inverted then 1#32 else 0#32) := by
    cases inverted <;> simp [encode, formatK_eq, fld]
  have halg (q : Packet) : ((s.setPkt p q).withRsp .ok 0#32).alg = s.alg := by simp [State.alg]
  refine ⟨hword, _, exec_ckgen p s inverted, onlyPacket_setPkt s p _ _, ?_⟩
  rw [pkt_setPkt_withRsp]
  refine ⟨seal_sameMeta _ _ _, fun hempty => seal_of_empty _ _ hempty, fun hsome => ⟨?_, fun i hne => ?_⟩⟩
  · have hholds := checksumHolds_seal ((s.setPkt p ((s.pkt p).seal s.alg inverted)).withRsp .ok 0#32) inverted hsome
      (hdata ▸ hlen)
    rwa [halg] at hholds
  · exact readByte_seal_ne _ _ hsome hne

/-! ### The word of PINFO -/

section

variable (p : Params) (a : CkAlg) (q : Packet)

theorem bits_pinfoWord_len : bits (pinfoWord p a q) 0 8 = q.len := by
  simp [pinfoWord, bits_or, bits_fld_self, bits_fld_below]

theorem bits_pinfoWord_isLong : bits (pinfoWord p a q) 8 1 = flagBit (isLong p q) := by
  simp [pinfoWord, bits_or, bits_fld_self, bits_fld_below, bits_fld_above]

theorem bits_pinfoWord_isShort : bits (pinfoWord p a q) 9 1 = flagBit (isShort p q) := by
  simp [pinfoWord, bits_or, bits_fld_self, bits_fld_below, bits_fld_above]

theorem bits_pinfoWord_sizeValid : bits (pinfoWord p a q) 10 1 = flagBit (sizeValid p q) := by
  simp [pinfoWord, bits_or, bits_fld_self, bits_fld_below, bits_fld_above]

theorem bits_pinfoWord_ckDirect : bits (pinfoWord p a q) 11 1 = flagBit (ckDirect a q) := by
  simp [pinfoWord, bits_or, bits_fld_self, bits_fld_below, bits_fld_above]

theorem bits_pinfoWord_ckInv : bits (pinfoWord p a q) 12 1 = flagBit (ckInv a q) := by
  simp [pinfoWord, bits_or, bits_fld_self, bits_fld_below, bits_fld_above]

theorem bits_pinfoWord_valid : bits (pinfoWord p a q) 13 1 = flagBit (valid p a q) := by
  simp [pinfoWord, bits_or, bits_fld_self, bits_fld_below, bits_fld_above]

theorem bits_pinfoWord_ovf : bits (pinfoWord p a q) 14 1 = flagBit q.ovf := by
  simp [pinfoWord, bits_or, bits_fld_self, bits_fld_below, bits_fld_above]

theorem bits_pinfoWord_reserved15 : bits (pinfoWord p a q) 15 1 = flagBit false := by
  simp [pinfoWord, bits_or, bits_fld_below, bits_fld_above, flagBit]

theorem bits_pinfoWord_src : bits (pinfoWord p a q) 16 2 = q.src.code := by
  simp [pinfoWord, bits_or, bits_fld_self, bits_fld_below, bits_fld_above]

theorem bits_pinfoWord_reserved18 : bits (pinfoWord p a q) 18 6 = 0#6 := by
  simp [pinfoWord, bits_or, bits_fld_below, bits_fld_above]

theorem bits_pinfoWord_typeByte : bits (pinfoWord p a q) 24 8 = q.typeByte := by
  simp [pinfoWord, bits_or, bits_fld_self, bits_fld_above]

end

/-- A 1-bit field that holds a flag is the flag. -/
theorem getLsbD_of_bits_eq_flagBit {w : Word} {i : Nat} {b : Bool} (h : bits w i 1 = flagBit b) : w.getLsbD i = b := by
  rw [← flagBit_getLsbD_zero b, ← h, getLsbD_bits]
  simp

/-- Settles O39: each field of the word is the test it shows, and each test says what its rule says (Laws/Packets.lean). -/
theorem pinfoFields : Obligations.PinfoFields := by
  intro p s
  have hflag {i : Nat} {b : Bool} {P : Prop} (h : bits (pinfoWord s.params s.alg (s.pkt p)) i 1 = flagBit b)
      (hb : b = true ↔ P) : (pinfoWord s.params s.alg (s.pkt p)).getLsbD i = true ↔ P :=
    getLsbD_of_bits_eq_flagBit h ▸ hb
  exact ⟨formatK_pkt _ p, _, exec_pinfo p s, rfl,
    bits_pinfoWord_len _ _ _,
    hflag (bits_pinfoWord_isLong _ _ _) beq_iff_eq,
    hflag (bits_pinfoWord_isShort _ _ _) beq_iff_eq,
    hflag (bits_pinfoWord_sizeValid _ _ _) (sizeValid_iff s _),
    hflag (bits_pinfoWord_ckDirect _ _ _) (ckDirect_iff s _),
    hflag (bits_pinfoWord_ckInv _ _ _) (ckInv_iff s _),
    hflag (bits_pinfoWord_valid _ _ _) (valid_iff s _),
    getLsbD_of_bits_eq_flagBit (bits_pinfoWord_ovf _ _ _),
    getLsbD_of_bits_eq_flagBit (bits_pinfoWord_reserved15 _ _ _),
    bits_pinfoWord_src _ _ _,
    bits_pinfoWord_reserved18 _ _ _,
    bits_pinfoWord_typeByte _ _ _⟩

end Sys2Proof.Machine

/-! PROOFS. The demultiplexer (spec/43_demux.md R180 to R189): the command words and answers of the group, what one command runs
by where its operands stand, and the one slot or packet register it changes. -/

namespace Sys2Proof.Machine

/-! ### The command words of the demultiplexer -/

/-- A format D word with its operand fields shifted into place (spec/30_encoding.md R85). -/
theorem formatD_eq (sub slot : BitVec 4) (q : BitVec 1) (lensel : BitVec 2) (maskOrIdx val : Byte) :
    formatD sub slot q lensel maskOrIdx val =
      (fld 0x3#4 28 ||| fld sub 24) ||| slot.setWidth 32 <<< 20 ||| q.setWidth 32 <<< 19 ||| lensel.setWidth 32 <<< 16 |||
        maskOrIdx.setWidth 32 <<< 8 ||| val.setWidth 32 := by
  simp only [formatD, fld, BitVec.shiftLeft_zero]

/-! ### Where a slot number stands -/

section

variable {s : State} {slot : BitVec 4}

theorem slotOut_iff : s.slotOut slot = true ↔ s.params.nslot ≤ slot.toNat := decide_eq_true_iff

theorem not_slotOut_of_lt (h : slot.toNat < s.params.nslot) : ¬s.slotOut slot = true := by
  rwa [slotOut_iff, Nat.not_le]

theorem slotUnregistered_iff : s.slotUnregistered slot = true ↔ s.reg.nreg.toNat ≤ slot.toNat := decide_eq_true_iff

theorem not_slotUnregistered_of_lt (h : slot.toNat < s.reg.nreg.toNat) : ¬s.slotUnregistered slot = true := by
  rwa [slotUnregistered_iff, Nat.not_le]

/-- A slot number below NSLOT is in the registry. -/
theorem State.Inv.lt_slots_length (hi : s.Inv) {i : Nat} (h : i < s.params.nslot) : i < s.reg.slots.length :=
  hi.slots_length ▸ h

end

/-! ### Registering a slot -/

/-- A new matcher in the next slot, which has no packet, and NREG one higher (spec/43_demux.md R182). -/
def State.register (s : State) (val mask : Byte) (sel : LenSel) : State :=
  let t :=
    s.setSlot s.reg.nreg.toNat
      { s.slot s.reg.nreg.toNat with val := val, mask := mask, lensel := sel, hasCur := false, hasPrev := false }
  { t with reg := { t.reg with nreg := s.reg.nreg + 1#5 } }

section

variable {s : State} {val mask : Byte} {lensel : BitVec 2} {sel : LenSel}

theorem exec_reg_of_range (h : lenSelOf lensel = none) : exec (.reg val mask lensel) s = .next (s.withRsp .range 0#32) := by
  simp only [exec, execReg, h, State.raise]

theorem exec_reg_of_locked (h : lenSelOf lensel = some sel) (hlock : s.reg.lock = true) :
    exec (.reg val mask lensel) s = .next (s.withRsp .regLocked 0#32) := by
  simp only [exec, execReg, h, if_pos hlock, State.raise]

theorem exec_reg_of_full (h : lenSelOf lensel = some sel) (hlock : s.reg.lock = false)
    (hfull : s.reg.nreg.toNat = s.params.nslot) : exec (.reg val mask lensel) s = .next (s.withRsp .regFull 0#32) := by
  simp only [exec, execReg, h, hlock, Bool.false_eq_true, if_false, if_pos hfull, State.raise]

theorem exec_reg_of_free (h : lenSelOf lensel = some sel) (hlock : s.reg.lock = false)
    (hfree : s.reg.nreg.toNat < s.params.nslot) :
    exec (.reg val mask lensel) s = .next ((s.register val mask sel).withRsp .ok (s.reg.nreg.setWidth 32)) := by
  simp only [exec, execReg, h, hlock, Bool.false_eq_true, if_false, if_neg hfree.ne]
  rfl

/-- A field value other than 3 stands for a length select (spec/30_encoding.md R85). -/
theorem exists_lenSelOf_of_ne_three (h : lensel ≠ 3#2) : ∃ sel, lenSelOf lensel = some sel :=
  Option.ne_none_iff_exists'.mp (mt (lenSelOf_eq_none lensel).mp h)

/-- The registry has at most 16 slots, so NREG does not wrap (spec/00_scope.md R6). -/
theorem toNat_nreg_add_one (hi : s.Inv) (hfree : s.reg.nreg.toNat < s.params.nslot) :
    (s.reg.nreg + 1#5).toNat = s.reg.nreg.toNat + 1 := by
  obtain ⟨-, -, ⟨-, hnslot⟩, -⟩ := hi.params_legal
  rw [BitVec.toNat_add]
  simp only [BitVec.toNat_ofNat]
  omega

end

/-- Settles O48: the exceptions are tested in the order stated, and `State.register` writes the slot NREG, which the registry
has. -/
theorem regRegistersSlot : Obligations.RegRegistersSlot := by
  intro val mask lensel s hi
  refine ⟨by simp [encode, formatD_eq, fld], fun hrange => ?_, fun hlegal hlock => ?_, fun hlegal hlock hfull => ?_,
    fun hlegal hlock hfree => ?_⟩
  · exact ⟨_, exec_reg_of_range ((lenSelOf_eq_none lensel).mpr hrange), rfl⟩
  · obtain ⟨sel, hsel⟩ := exists_lenSelOf_of_ne_three hlegal
    exact ⟨_, exec_reg_of_locked hsel hlock, rfl⟩
  · obtain ⟨sel, hsel⟩ := exists_lenSelOf_of_ne_three hlegal
    exact ⟨_, exec_reg_of_full hsel hlock hfull, rfl⟩
  · obtain ⟨sel, hsel⟩ := exists_lenSelOf_of_ne_three hlegal
    exact ⟨_, sel, exec_reg_of_free hsel hlock hfree, (lenSelOf_eq_some lensel sel).mp hsel, rfl,
      toNat_nreg_add_one hi hfree, State.setSlot_slots_length s _ _,
      State.setSlot_slot_self s _ _ (hi.lt_slots_length hfree), fun j hj => State.setSlot_slot_ne s _ j _ hj⟩

/-! ### Dispatch -/

/-- Two fields next to each other do not overlap, so they make a sum. -/
theorem fld_byte_or_fld_code (id : Byte) (c : BitVec 2) :
    fld id 8 ||| fld c 0 = BitVec.ofNat 32 (id.toNat * 256 + c.toNat) := by
  have hid := id.isLt
  have hc := c.isLt
  have hhigh : (fld id 8).toNat = 2 ^ 8 * id.toNat := by
    simp [fld, Nat.shiftLeft_eq]
    omega
  have hlow : (fld c 0).toNat = c.toNat := by
    simp [fld]
    omega
  apply BitVec.eq_of_toNat_eq
  rw [BitVec.toNat_or, hhigh, hlow, ← Nat.two_pow_add_eq_or_of_lt (by omega), BitVec.toNat_ofNat]
  omega

/-- The answer of DISP with its fields written out (spec/43_demux.md R183). -/
theorem dispWord_eq (p : PktSel) (id : Byte) (k : DispKind) :
    dispWord p id k = p.bit.setWidth 32 <<< 16 ||| BitVec.ofNat 32 (id.toNat * 256 + k.code.toNat) := by
  rw [dispWord, BitVec.or_assoc, fld_byte_or_fld_code, fld]

section

variable {p : PktSel} {s : State}

theorem exec_disp_of_invalid (h : ¬PacketValid s (s.pkt p)) :
    exec (.disp p) s = s.lockRegistry.endDisp (dispWord p 0xFF#8 .invalid) :=
  if_neg (mt (valid_iff s _).mp h)

theorem exec_disp_of_unknown (h : PacketValid s (s.pkt p)) (hnone : ∀ i, ¬SlotMatches s (s.pkt p) i) :
    exec (.disp p) s = s.lockRegistry.endDisp (dispWord p 0xFF#8 .unknown) := by
  simp only [exec, execDisp, if_pos ((valid_iff s _).mpr h), matchId_lockRegistry, (matchId_eq_none s _).mpr hnone]

theorem exec_disp_of_match (h : PacketValid s (s.pkt p)) {i : Nat} (hfirst : FirstMatch s (s.pkt p) i) :
    exec (.disp p) s =
      (s.lockRegistry.stage i (s.pkt p)).endDisp (dispWord p (BitVec.ofNat 8 i) .matched) := by
  simp only [exec, execDisp, if_pos ((valid_iff s _).mpr h), matchId_lockRegistry, (matchId_eq_some s _ i).mpr hfirst]

end

/-- Settles O49: the three ends of DISP as `exec_disp_of_invalid`, `exec_disp_of_unknown` and `exec_disp_of_match` say them; a
slot that matches is in the registry, and its number fits the answer's 8 bits. -/
theorem dispClassifiesAndStages : Obligations.DispClassifiesAndStages := by
  intro p s hi
  refine ⟨by simp [encode, formatD_eq, fld], fun hbad => ?_, fun hvalid hnone => ?_, fun i hvalid hfirst => ?_⟩
  · rw [exec_disp_of_invalid hbad, dispWord_eq]
    rfl
  · rw [exec_disp_of_unknown hvalid hnone, dispWord_eq]
    rfl
  · obtain ⟨-, hlen, h16⟩ := hfirst.1.lt_sixteen hi
    have hid : (BitVec.ofNat 8 i).toNat = i := Nat.mod_eq_of_lt (by omega)
    rw [exec_disp_of_match hvalid hfirst, dispWord_eq, hid]
    exact ⟨_, rfl, rfl, State.setSlot_slots_length s.lockRegistry _ _, State.setSlot_slot_self s.lockRegistry _ _ hlen,
      fun j hj => State.setSlot_slot_ne s.lockRegistry _ j _ hj⟩

/-! ### Snapshot -/

section

variable {s : State} {slot : BitVec 4}

theorem xferOut_iff :
    (s.slotOut slot || s.slotUnregistered slot) = true ↔
      s.params.nslot ≤ slot.toNat ∨ s.reg.nreg.toNat ≤ slot.toNat := by
  rw [Bool.or_eq_true, slotOut_iff, slotUnregistered_iff]

theorem exec_xfer_of_out (h : s.params.nslot ≤ slot.toNat ∨ s.reg.nreg.toNat ≤ slot.toNat) :
    exec (.xfer slot) s = .next (s.withRsp .range 0#32) :=
  if_pos (xferOut_iff.mpr h)

theorem exec_xfer_of_registered (h : slot.toNat < s.params.nslot) (hreg : slot.toNat < s.reg.nreg.toNat) :
    exec (.xfer slot) s = .next ((s.setSlot slot.toNat (s.slot slot.toNat).transfer).withRsp .ok 0#32) :=
  if_neg (by rw [xferOut_iff]; omega)

end

/-- Settles O52: the slot takes the value of `Slot.transfer`, in both cases of `hasCur`. -/
theorem xferSnapshotsCurrent : Obligations.XferSnapshotsCurrent := by
  intro slot s hi
  refine ⟨by simp [encode, formatD_eq, fld], fun hout => ⟨_, exec_xfer_of_out hout, rfl⟩, fun hin hreg => ?_⟩
  refine ⟨_, exec_xfer_of_registered hin hreg, onlySlot_setSlot s _ _ _, ?_⟩
  rw [State.withRsp_slot, State.setSlot_slot_self s _ _ (hi.lt_slots_length hin)]
  exact ⟨transfer_of_hasCur _, transfer_of_not_hasCur _⟩

/-! ### The word of SINFO -/

section

variable (sl : Slot)

theorem bits_sinfoWord_registered : bits (sinfoWord sl) 0 1 = flagBit true := by
  simp [sinfoWord, bits_or, bits_fld_self, bits_fld_below, flagBit]

theorem bits_sinfoWord_hasCur : bits (sinfoWord sl) 1 1 = flagBit sl.hasCur := by
  simp [sinfoWord, bits_or, bits_fld_self, bits_fld_below, bits_fld_above]

theorem bits_sinfoWord_hasPrev : bits (sinfoWord sl) 2 1 = flagBit sl.hasPrev := by
  simp [sinfoWord, bits_or, bits_fld_self, bits_fld_below, bits_fld_above]

theorem bits_sinfoWord_changed : bits (sinfoWord sl) 3 1 = flagBit sl.changed := by
  simp [sinfoWord, bits_or, bits_fld_self, bits_fld_below, bits_fld_above]

theorem bits_sinfoWord_lensel : bits (sinfoWord sl) 4 2 = sl.lensel.code := by
  simp [sinfoWord, bits_or, bits_fld_self, bits_fld_below, bits_fld_above]

theorem bits_sinfoWord_reserved6 : bits (sinfoWord sl) 6 2 = 0#2 := by
  simp [sinfoWord, bits_or, bits_fld_below, bits_fld_above]

theorem bits_sinfoWord_len : bits (sinfoWord sl) 8 8 = if sl.hasCur then sl.cur.len else 0#8 := by
  simp [sinfoWord, bits_or, bits_fld_self, bits_fld_below, bits_fld_above]

theorem bits_sinfoWord_val : bits (sinfoWord sl) 16 8 = sl.val := by
  simp [sinfoWord, bits_or, bits_fld_self, bits_fld_below, bits_fld_above]

theorem bits_sinfoWord_mask : bits (sinfoWord sl) 24 8 = sl.mask := by
  simp [sinfoWord, bits_or, bits_fld_self, bits_fld_above]

end

section

variable {s : State} {slot : BitVec 4}

theorem exec_sinfo_of_out (h : s.params.nslot ≤ slot.toNat) : exec (.sinfo slot) s = .next (s.withRsp .range 0#32) :=
  if_pos (slotOut_iff.mpr h)

theorem exec_sinfo_of_unregistered (h : slot.toNat < s.params.nslot) (hreg : s.reg.nreg.toNat ≤ slot.toNat) :
    exec (.sinfo slot) s = .next (s.withRsp .ok 0#32) :=
  (if_neg (not_slotOut_of_lt h)).trans (if_pos (slotUnregistered_iff.mpr hreg))

theorem exec_sinfo_of_registered (h : slot.toNat < s.params.nslot) (hreg : slot.toNat < s.reg.nreg.toNat) :
    exec (.sinfo slot) s = .next (s.withRsp .ok (sinfoWord (s.slot slot.toNat))) :=
  (if_neg (not_slotOut_of_lt h)).trans (if_neg (not_slotUnregistered_of_lt hreg))

end

/-- Settles O53: each field of the word is what the slot holds, and the change detection says what R186 says
(`changed_iff`). -/
theorem sinfoFields : Obligations.SinfoFields := by
  intro slot s
  refine ⟨by simp [encode, formatD_eq, fld], fun hout => ⟨_, exec_sinfo_of_out hout, rfl⟩,
    fun hin hunreg => ⟨_, exec_sinfo_of_unregistered hin hunreg, rfl⟩, fun hin hreg => ?_⟩
  have hchanged : (sinfoWord (s.slot slot.toNat)).getLsbD 3 = true ↔ SlotChanged (s.slot slot.toNat) := by
    rw [getLsbD_of_bits_eq_flagBit (bits_sinfoWord_changed _), changed_iff]
  exact ⟨_, exec_sinfo_of_registered hin hreg, rfl,
    getLsbD_of_bits_eq_flagBit (bits_sinfoWord_registered _),
    getLsbD_of_bits_eq_flagBit (bits_sinfoWord_hasCur _),
    getLsbD_of_bits_eq_flagBit (bits_sinfoWord_hasPrev _),
    hchanged,
    bits_sinfoWord_lensel _,
    bits_sinfoWord_reserved6 _,
    bits_sinfoWord_len _,
    bits_sinfoWord_val _,
    bits_sinfoWord_mask _⟩

/-! ### Reading a slot's packet -/

/-- The packet a slot has under the name `which`, from its flag and its packet of that name. -/
theorem packet?_eq {sl : Slot} {which : Which} {has : Bool} {q : Packet}
    (hcur : which = .cur → has = sl.hasCur ∧ q = sl.cur) (hprev : which = .prev → has = sl.hasPrev ∧ q = sl.prev) :
    sl.packet? which = if has then some q else none := by
  cases which with
  | cur =>
    obtain ⟨rfl, rfl⟩ := hcur rfl
    rfl
  | prev =>
    obtain ⟨rfl, rfl⟩ := hprev rfl
    rfl

section

variable {s : State} {slot : BitVec 4}

variable {which : Which} {idx : Byte}

theorem srdbOut_iff :
    (s.slotOut slot || s.idxOut idx) = true ↔ s.params.nslot ≤ slot.toNat ∨ s.params.cap ≤ idx.toNat := by
  rw [Bool.or_eq_true, slotOut_iff, State.idxOut, decide_eq_true_iff]

theorem not_srdbOut_of_lt (hslot : slot.toNat < s.params.nslot) (hidx : idx.toNat < s.params.cap) :
    ¬(s.slotOut slot || s.idxOut idx) = true := by
  rw [srdbOut_iff]
  omega

theorem exec_srdb_of_out (h : s.params.nslot ≤ slot.toNat ∨ s.params.cap ≤ idx.toNat) :
    exec (.srdb slot which idx) s = .next (s.withRsp .range 0#32) :=
  if_pos (srdbOut_iff.mpr h)

theorem exec_srdb_of_absent (hslot : slot.toNat < s.params.nslot) (hidx : idx.toNat < s.params.cap)
    (h : (s.slot slot.toNat).packet? which = none) :
    exec (.srdb slot which idx) s = .next (s.withRsp .absent 0#32) := by
  simp only [exec, execSrdb, if_neg (not_srdbOut_of_lt hslot hidx), h, State.raise]

theorem exec_srdb_of_present (hslot : slot.toNat < s.params.nslot) (hidx : idx.toNat < s.params.cap) {q : Packet}
    (h : (s.slot slot.toNat).packet? which = some q) : exec (.srdb slot which idx) s = s.respondByte q idx := by
  simp only [exec, execSrdb, if_neg (not_srdbOut_of_lt hslot hidx), h]

end

/-- Settles O54: the packet read is the one `which` names (`packet?_eq`), and its answer the one of `respondByte_eq_next`. -/
theorem srdbReadsSlotByte : Obligations.SrdbReadsSlotByte := by
  intro slot which idx s _
  refine ⟨by simp [encode, formatD_eq, fld], fun hout => ⟨_, exec_srdb_of_out hout, rfl⟩, fun hslot hidx => ?_⟩
  intro has q hcur hprev
  have hpacket := packet?_eq hcur hprev
  refine ⟨?_, ?_, ?_⟩
  · rintro rfl
    exact ⟨_, exec_srdb_of_absent hslot hidx hpacket, rfl⟩
  · rintro rfl hdef
    rw [exec_srdb_of_present hslot hidx hpacket]
    exact ⟨_, (respondByte_eq_next s _ q idx).mpr (.inl ⟨hdef, rfl⟩), rfl⟩
  · rintro rfl hundef
    rw [exec_srdb_of_present hslot hidx hpacket]
    exact ⟨_, (respondByte_eq_next s _ q idx).mpr (.inr ⟨hundef, rfl⟩), rfl⟩

/-! ### Loading a slot's packet -/

section

variable {s : State} {slot : BitVec 4}

theorem exec_sload_of_out (p : PktSel) (h : s.params.nslot ≤ slot.toNat) :
    exec (.sload slot p) s = .next (s.withRsp .range 0#32) :=
  if_pos (slotOut_iff.mpr h)

theorem exec_sload_of_absent (p : PktSel) (h : slot.toNat < s.params.nslot)
    (habsent : (s.slot slot.toNat).hasCur = false) : exec (.sload slot p) s = .next (s.withRsp .absent 0#32) :=
  (if_neg (not_slotOut_of_lt h)).trans (if_neg (Bool.not_eq_true _ ▸ habsent))

theorem exec_sload_of_present (p : PktSel) (h : slot.toNat < s.params.nslot)
    (hcur : (s.slot slot.toNat).hasCur = true) :
    exec (.sload slot p) s = .next ((s.setPkt p (s.slot slot.toNat).cur).withRsp .ok 0#32) :=
  (if_neg (not_slotOut_of_lt h)).trans (if_pos hcur)

end

/-- Settles O55: the packet register is set to the slot's `cur` (`exec_sload_of_present`). -/
theorem sloadLoadsCurrent : Obligations.SloadLoadsCurrent := by
  intro slot p s
  refine ⟨by simp [encode, formatD_eq, fld], fun hout => ⟨_, exec_sload_of_out p hout, rfl⟩,
    fun hin habsent => ⟨_, exec_sload_of_absent p hin habsent, rfl⟩, fun hin hcur => ?_⟩
  exact ⟨_, exec_sload_of_present p hin hcur, onlyPacket_setPkt s p _ _, pkt_setPkt_withRsp p s _ _ _⟩

end Sys2Proof.Machine

/-! PROOFS. No-operation and register access (spec/44_control_regs.md): what CFG admits, field by field, and the cases of WRREG in
the order they are tested. -/

namespace Sys2Proof.Machine

/-! ### The values CFG admits -/

section

variable {v : Half}

/-- The reserved bits of CFG are bits 7, 10, 11, 14 and 15. The value is read as the low half of a word, so that the mask of
`cfgReservedSet_bits` applies. -/
theorem cfgReservedSet_iff : cfgReservedSet v = true ↔ v &&& 0xCC80#16 ≠ 0#16 := by
  have hlow : bits (v.setWidth 32) 0 16 = v := by
    rw [bits, BitVec.extractLsb'_setWidth_of_le (by omega), BitVec.extractLsb'_eq_self]
  have hmask : v.setWidth 32 &&& 0xCC80#32 = (v &&& 0xCC80#16).setWidth 32 := by
    rw [BitVec.setWidth_and]
    rfl
  have hzero : (v &&& 0xCC80#16).setWidth 32 = 0#32 ↔ v &&& 0xCC80#16 = 0#16 := by
    rw [← BitVec.toNat_inj, ← BitVec.toNat_inj, BitVec.toNat_setWidth_of_le (by omega)]
    rfl
  calc cfgReservedSet v = true ↔ cfgReservedSet (bits (v.setWidth 32) 0 16) = true := by rw [hlow]
    _ ↔ v.setWidth 32 &&& 0xCC80#32 ≠ 0#32 := cfgReservedSet_bits _
    _ ↔ v &&& 0xCC80#16 ≠ 0#16 := by rw [hmask, ne_eq, hzero]

theorem cfgTol_eq : cfgTol v = v.toNat % 128 := by
  rw [cfgTol, BitVec.extractLsb'_toNat, Nat.shiftRight_zero]

theorem toNat_cfgCkAlgBits : (cfgCkAlgBits v).toNat = v.toNat / 256 % 4 := by
  rw [cfgCkAlgBits, BitVec.extractLsb'_toNat, Nat.shiftRight_eq_div_pow]

theorem cfgOutOfRange_iff : cfgOutOfRange v = true ↔ 100 < v.toNat % 128 ∨ v.toNat / 256 % 4 = 3 := by
  rw [cfgOutOfRange, Bool.or_eq_true, decide_eq_true_iff, beq_iff_eq, cfgTol_eq, ← BitVec.toNat_inj, toNat_cfgCkAlgBits]
  rfl

end

/-! ### Writing CFG -/

section

variable {r : BitVec 4} {v : Half} {s : State}

theorem wrregIllegal_iff :
    wrregIllegal r v = true ↔ 1 ≤ r.toNat ∧ r.toNat ≤ 7 ∨ r = 0#4 ∧ v &&& 0xCC80#16 ≠ 0#16 := by
  rw [wrregIllegal, Bool.or_eq_true, Bool.and_eq_true, decide_eq_true_iff, beq_iff_eq, cfgReservedSet_iff]

/-- A register number from 8 on is out of range, never illegal. -/
theorem not_wrregIllegal_of_eight_le (h : 8 ≤ r.toNat) : ¬wrregIllegal r v = true := by
  rw [wrregIllegal_iff]
  rintro (⟨-, hle⟩ | ⟨rfl, -⟩)
  · omega
  · contradiction

/-- A value of CFG without reserved bits is not illegal. -/
theorem not_wrregIllegal_cfg (h : v &&& 0xCC80#16 = 0#16) : ¬wrregIllegal 0#4 v = true := by
  rw [wrregIllegal_iff]
  rintro (⟨hpos, -⟩ | ⟨-, hset⟩)
  · contradiction
  · exact hset h

theorem exec_wrreg_of_register_out (h : 8 ≤ r.toNat) : exec (.wrreg r v) s = .next (s.withRsp .range 0#32) :=
  (if_neg (not_wrregIllegal_of_eight_le h)).trans (if_pos h)

theorem exec_wrreg_cfg (h : v &&& 0xCC80#16 = 0#16) :
    exec (.wrreg 0#4 v) s =
      if cfgOutOfRange v then .next (s.withRsp .range 0#32) else .next (State.withRsp { s with cfg := v } .ok 0#32) :=
  (if_neg (not_wrregIllegal_cfg h)).trans (if_neg (by decide))

end

theorem formatR_eq (sub r : BitVec 4) (v : Half) :
    formatR sub r v = 0x50000000#32 ||| sub.setWidth 32 <<< 24 ||| r.setWidth 32 <<< 16 ||| v.setWidth 32 := by
  simp only [formatR, fld, BitVec.shiftLeft_zero]
  rfl

/-- Settles O58: a WRREG is illegal by its operands alone (`wrregIllegal_iff`), is refused for its register number
(`exec_wrreg_of_register_out`), or tests and writes CFG (`exec_wrreg_cfg`). -/
theorem wrregWritesCfg : Obligations.WrregWritesCfg := by
  intro r v s
  refine ⟨by simp [encode, formatR_eq], fun hillegal => ?_, fun hout => ⟨_, exec_wrreg_of_register_out hout, rfl⟩, ?_, ?_⟩
  · exact ⟨_, exec_of_answersIllegal s (wrregIllegal_iff.mpr hillegal), rfl⟩
  · rintro rfl hreserved hrange
    exact ⟨_, (exec_wrreg_cfg hreserved).trans (if_pos (cfgOutOfRange_iff.mpr hrange)), rfl⟩
  · rintro rfl hreserved htol hckalg
    have hlegal : ¬cfgOutOfRange v = true := by
      rw [cfgOutOfRange_iff]
      omega
    exact (exec_wrreg_cfg hreserved).trans (if_neg hlegal)

/-! ### No operation -/

/-- The step of a word the decoder refuses: ILLEGAL on the sampled state (spec/30_encoding.md R89). -/
theorem step_of_decode_error {s : State} {c : Command} {rest : List HostInput} {e : DecodeError}
    (hin : s.inputs = .command c :: rest) (hdec : decode c.word = .error e) :
    step s = .next ((s.sample c rest).withRsp .illegal 0#32) := by
  simp only [step, hin, hdec, State.raise]

/-- NOP is the one word of group 0 (spec/30_encoding.md R82). -/
theorem decode_of_op_zero {w : Word} (hop : w.toNat < 2 ^ 28) (hw : w ≠ 0#32) : decode w = .error .nopNotZero := by
  have hzero : (bits w 28 4).toNat = 0 := (toNat_bits_op w).trans (Nat.div_eq_of_lt hop)
  simp only [decode, hzero, if_neg hw]

/-- Settles O56: the decoder refuses every word of group 0 but NOP (`decode_of_op_zero`), and a refused word answers ILLEGAL
(`step_of_decode_error`). -/
theorem nopChangesNothing : Obligations.NopChangesNothing := by
  refine ⟨rfl, fun s => ⟨_, rfl, rfl⟩, fun w hop hw i hdec => ?_, fun s c rest hin hop hw => ?_⟩
  · rw [decode_of_op_zero hop hw] at hdec
    contradiction
  · exact step_of_decode_error hin (decode_of_op_zero hop hw)

end Sys2Proof.Machine

/-! PROOFS. Response status (spec/60_exceptions.md R232): a command ends with OK, or it is refused whole on the state it
started from. -/

namespace Sys2Proof.Machine

/-! ### The two ways a command ends -/

/-- The outcome is a next state with status OK, or the refusal of a command on the state `s` itself. -/
def OkOrRefusedOn (s : State) (r : Result) : Prop := (∃ t, r = .next t ∧ t.rsp.status = .ok) ∨ ∃ st, r = s.raise st

section

variable {s : State}

theorem respond_okOrRefusedOn (t : State) (d : Word) : OkOrRefusedOn s (t.respond d) := .inl ⟨_, rfl, rfl⟩

theorem raise_okOrRefusedOn (st : Status) : OkOrRefusedOn s (s.raise st) := .inr ⟨st, rfl⟩

theorem respondByte_okOrRefusedOn (t : State) (q : Packet) (idx : Byte) : OkOrRefusedOn s (t.respondByte q idx) := by
  unfold State.respondByte
  split <;> exact respond_okOrRefusedOn _ _

theorem ite_okOrRefusedOn {c : Prop} [Decidable c] {r r' : Result} (h : OkOrRefusedOn s r) (h' : OkOrRefusedOn s r') :
    OkOrRefusedOn s (if c then r else r') := by
  split
  · exact h
  · exact h'

/-- A guard that refuses the command before anything is written. -/
theorem guard_okOrRefusedOn {c : Prop} [Decidable c] {st : Status} {r : Result} (h : OkOrRefusedOn s r) :
    OkOrRefusedOn s (if c then s.raise st else r) :=
  ite_okOrRefusedOn (raise_okOrRefusedOn st) h

/-- A refusal is the only way to a status other than OK, and it drives data 0 and nothing else. -/
theorem OkOrRefusedOn.onlyResponse {r : Result} {t : State} (h : OkOrRefusedOn s r) (hnext : r = .next t)
    (hst : t.rsp.status ≠ .ok) : OnlyResponse s t t.rsp.status 0#32 := by
  obtain ⟨u, rfl, hok⟩ | ⟨st, rfl⟩ := h
  · cases hnext
    exact absurd hok hst
  · obtain rfl := (raise_eq_next s t st).mp hnext
    rfl

end

/-! ### Every command and every command word -/

/-- Each meaning tests what it refuses on the state it was given, before its first write; from there on it responds. -/
theorem exec_okOrRefusedOn (i : Instr) (s : State) : OkOrRefusedOn s (exec i s) := by
  cases i with
  | nop | pulse | pnew | push | pinfo | ptime | page | inv | brev | ckgen | ckcalc | pcopy | txabort =>
    exact respond_okOrRefusedOn _ _
  | wrb | xfer | enc => exact guard_okOrRefusedOn (respond_okOrRefusedOn _ _)
  | rdb => exact guard_okOrRefusedOn (respondByte_okOrRefusedOn _ _ _)
  | reg val mask lensel =>
    simp only [exec, execReg]
    split
    · exact raise_okOrRefusedOn _
    · exact guard_okOrRefusedOn (guard_okOrRefusedOn (respond_okOrRefusedOn _ _))
  | disp p =>
    refine ite_okOrRefusedOn ?_ (respond_okOrRefusedOn _ _)
    split <;> exact respond_okOrRefusedOn _ _
  | sinfo slot =>
    exact guard_okOrRefusedOn (ite_okOrRefusedOn (respond_okOrRefusedOn _ _) (respond_okOrRefusedOn _ _))
  | srdb slot which idx =>
    refine guard_okOrRefusedOn ?_
    split
    · exact raise_okOrRefusedOn _
    · exact respondByte_okOrRefusedOn _ _ _
  | sload slot p => exact guard_okOrRefusedOn (ite_okOrRefusedOn (respond_okOrRefusedOn _ _) (raise_okOrRefusedOn _))
  | txpop =>
    exact ite_okOrRefusedOn (ite_okOrRefusedOn (respond_okOrRefusedOn _ _) (respond_okOrRefusedOn _ _))
      (respond_okOrRefusedOn _ _)
  | rdreg r =>
    simp only [exec, execRdreg]
    split
    · exact respond_okOrRefusedOn _ _
    · exact raise_okOrRefusedOn _
  | wrreg r v => exact guard_okOrRefusedOn (guard_okOrRefusedOn (guard_okOrRefusedOn (respond_okOrRefusedOn _ _)))
  | clrst v => exact ite_okOrRefusedOn (respond_okOrRefusedOn _ _) (raise_okOrRefusedOn _)

/-- A word the decoder refuses is refused on the sampled state too, like a command (spec/30_encoding.md R89). -/
theorem step_okOrRefusedOn {s : State} {c : Command} {rest : List HostInput} (hin : s.inputs = .command c :: rest) :
    OkOrRefusedOn (s.sample c rest) (step s) := by
  cases hdec : decode c.word with
  | error e =>
    rw [step_of_decode_error hin hdec]
    exact raise_okOrRefusedOn _
  | ok i =>
    rw [step_of_decode_ok hin hdec]
    exact exec_okOrRefusedOn i _

/-- Settles O12: a command or word that does not end with OK was refused (`exec_okOrRefusedOn`, `step_okOrRefusedOn`), and a
refusal changes only the response (`OkOrRefusedOn.onlyResponse`). -/
theorem refusedCommandChangesNothing : Obligations.RefusedCommandChangesNothing :=
  ⟨fun i s _ hnext hst => (exec_okOrRefusedOn i s).onlyResponse hnext hst,
    fun _ _ _ _ hin hnext hst => (step_okOrRefusedOn hin).onlyResponse hnext hst⟩

end Sys2Proof.Machine

/-! PROOFS. Reset and hazards (spec/70_reset_and_hazards.md R268): the registration barrier. REG and DISP are the only commands
that write REG_LOCK or NREG. -/

namespace Sys2Proof.Machine

/-! ### The decoder and the registry -/

section

variable (s : State)

@[simp] theorem advance_reg (ph : Phase) : (s.advance ph).state.reg = s.reg := rfl

@[simp] theorem abort_reg (c : Cause) : (s.abort c).state.reg = s.reg := rfl

@[simp] theorem abortReeval_reg (c : Cause) (l : Level) (d : Duration) : (s.abortReeval c l d).state.reg = s.reg := by
  obtain ⟨heq, -⟩ | ⟨heq, -⟩ := abortReeval_state s c l d <;> simp [heq]

@[simp] theorem takeBit_reg (b : Bool) : (s.takeBit b).state.reg = s.reg := by
  obtain ⟨-, heq⟩ | ⟨-, abuf, -, heq, -⟩ := takeBit_cases s b <;> simp [heq]

@[simp] theorem complete_reg : s.complete.state.reg = s.reg := by
  obtain ⟨-, heq⟩ | ⟨-, -, heq⟩ | ⟨-, -, heq⟩ := complete_cases s <;> simp [heq]

/-- No pulse record reaches the registry. -/
@[simp] theorem pulse_reg (l : Level) (d : Duration) : (s.pulse l d).state.reg = s.reg := by
  obtain ⟨-, heq⟩ | ⟨-, heq⟩ | ⟨-, heq⟩ | ⟨-, heq⟩ | ⟨-, b, heq⟩ | ⟨-, heq⟩ | ⟨-, heq⟩ | ⟨-, c, -, heq⟩ :=
    pulse_cases s l d <;> simp [heq]

end

/-! ### Commands that leave REG_LOCK and NREG alone -/

/-- The outcome is a next state with the REG_LOCK and the NREG of `s`. -/
def KeepsRegistration (s : State) (r : Result) : Prop :=
  ∃ t, r = .next t ∧ t.reg.lock = s.reg.lock ∧ t.reg.nreg = s.reg.nreg

section

variable {s : State}

theorem respond_keepsRegistration {t : State} (d : Word) (hlock : t.reg.lock = s.reg.lock)
    (hnreg : t.reg.nreg = s.reg.nreg) : KeepsRegistration s (t.respond d) :=
  ⟨_, rfl, hlock, hnreg⟩

theorem respond_keepsRegistration_of_reg_eq {t : State} (d : Word) (h : t.reg = s.reg) :
    KeepsRegistration s (t.respond d) :=
  respond_keepsRegistration d (congrArg Registry.lock h) (congrArg Registry.nreg h)

theorem raise_keepsRegistration (st : Status) : KeepsRegistration s (s.raise st) := ⟨_, rfl, rfl, rfl⟩

theorem respondByte_keepsRegistration (q : Packet) (idx : Byte) : KeepsRegistration s (s.respondByte q idx) := by
  obtain ⟨t, ht⟩ := respondByte_completes s q idx
  obtain ⟨-, rfl⟩ | ⟨-, rfl⟩ := (respondByte_eq_next s t q idx).mp ht <;> exact ⟨_, ht, rfl, rfl⟩

theorem ite_keepsRegistration {c : Prop} [Decidable c] {r r' : Result} (h : KeepsRegistration s r)
    (h' : KeepsRegistration s r') : KeepsRegistration s (if c then r else r') := by
  split
  · exact h
  · exact h'

/-- A guard that refuses the command before anything is written. -/
theorem guard_keepsRegistration {c : Prop} [Decidable c] {st : Status} {r : Result} (h : KeepsRegistration s r) :
    KeepsRegistration s (if c then s.raise st else r) :=
  ite_keepsRegistration (raise_keepsRegistration st) h

end

/-! ### The barrier -/

/-- DISP sets REG_LOCK first and then, whatever its result, changes at most one slot of the registry (spec/43_demux.md R183). -/
theorem exec_disp_keepsRegistration (p : PktSel) (s : State) : KeepsRegistration s.lockRegistry (exec (.disp p) s) := by
  refine ite_keepsRegistration ?_ (respond_keepsRegistration _ rfl rfl)
  split <;> exact respond_keepsRegistration _ rfl rfl

/-- In a locked registry REG is refused: for its `lensel`, else for the lock (spec/43_demux.md R182). -/
theorem exec_reg_of_lock {s : State} (val mask : Byte) (lensel : BitVec 2) (hlock : s.reg.lock = true) :
    ∃ st, st ≠ .ok ∧ exec (.reg val mask lensel) s = s.raise st := by
  cases hsel : lenSelOf lensel with
  | none => exact ⟨.range, nofun, exec_reg_of_range hsel⟩
  | some sel => exact ⟨.regLocked, nofun, exec_reg_of_locked hsel hlock⟩

/-- Only REG and DISP write REG_LOCK or NREG; a locked registry refuses the first, and the second sets a lock that is set. -/
theorem exec_keepsRegistration_of_lock (i : Instr) {s : State} (hlock : s.reg.lock = true) :
    KeepsRegistration s (exec i s) := by
  cases i with
  | reg val mask lensel =>
    obtain ⟨st, -, heq⟩ := exec_reg_of_lock val mask lensel hlock
    rw [heq]
    exact raise_keepsRegistration st
  | disp p =>
    obtain ⟨t, hnext, hlocked, hnreg⟩ := exec_disp_keepsRegistration p s
    exact ⟨t, hnext, hlocked.trans hlock.symm, hnreg⟩
  | nop | pinfo | ptime | page | ckcalc | txabort => exact respond_keepsRegistration _ rfl rfl
  | pulse l d => exact respond_keepsRegistration_of_reg_eq _ (pulse_reg s l d)
  | pnew | push | inv | brev | ckgen | pcopy =>
    exact respond_keepsRegistration_of_reg_eq _ (State.setPkt_reg s _ _)
  | wrb => exact guard_keepsRegistration (respond_keepsRegistration_of_reg_eq _ (State.setPkt_reg s _ _))
  | rdb => exact guard_keepsRegistration (respondByte_keepsRegistration _ _)
  | xfer | enc => exact guard_keepsRegistration (respond_keepsRegistration _ rfl rfl)
  | sinfo =>
    exact guard_keepsRegistration
      (ite_keepsRegistration (respond_keepsRegistration _ rfl rfl) (respond_keepsRegistration _ rfl rfl))
  | srdb =>
    refine guard_keepsRegistration ?_
    split
    · exact raise_keepsRegistration _
    · exact respondByte_keepsRegistration _ _
  | sload =>
    exact guard_keepsRegistration (ite_keepsRegistration
      (respond_keepsRegistration_of_reg_eq _ (State.setPkt_reg s _ _)) (raise_keepsRegistration _))
  | txpop =>
    exact ite_keepsRegistration
      (ite_keepsRegistration (respond_keepsRegistration _ rfl rfl) (respond_keepsRegistration _ rfl rfl))
      (respond_keepsRegistration _ rfl rfl)
  | rdreg r =>
    simp only [exec, execRdreg]
    split
    · exact respond_keepsRegistration _ rfl rfl
    · exact raise_keepsRegistration _
  | wrreg =>
    exact guard_keepsRegistration
      (guard_keepsRegistration (guard_keepsRegistration (respond_keepsRegistration _ rfl rfl)))
  | clrst => exact ite_keepsRegistration (respond_keepsRegistration _ rfl rfl) (raise_keepsRegistration _)

/-- Settles O16: DISP ends in a locked registry (`exec_disp_keepsRegistration`), from which no command unlocks or registers
(`exec_keepsRegistration_of_lock`) and REG is refused (`exec_reg_of_lock`). -/
theorem firstDispatchEndsRegistration : Obligations.FirstDispatchEndsRegistration := by
  refine ⟨fun p s => ?_, fun i s t hlock hnext => ?_⟩
  · obtain ⟨t, hnext, hlocked, -⟩ := exec_disp_keepsRegistration p s
    exact ⟨t, hnext, hlocked⟩
  · obtain ⟨u, hu, hlocked, hnreg⟩ := exec_keepsRegistration_of_lock i hlock
    obtain rfl : t = u := Host.Outcome.next.inj (hnext.symm.trans hu)
    refine ⟨hlocked.trans hlock, hnreg, ?_⟩
    rintro val mask lensel rfl
    obtain ⟨st, hst, heq⟩ := exec_reg_of_lock val mask lensel hlock
    obtain rfl := (raise_eq_next s t st).mp (heq.symm.trans hnext)
    exact hst

end Sys2Proof.Machine

/-! PROOFS. Decode and encode (spec/30_encoding.md R80 to R89): the fields of a word of each format, the decoder on such a word,
and the fields of a word the decoder accepts. -/

namespace Sys2Proof.Machine

/-! ### The fields of a word of each format -/

section

variable (l : Level) (d : Duration)

@[simp] theorem bits_formatP_op : bits (formatP l d) 28 4 = 1#4 := by
  simp [formatP, bits_or, bits_fld_self, bits_fld_above]

@[simp] theorem bits_formatP_level : bits (formatP l d) 27 1 = l.bit := by
  simp [formatP, bits_or, bits_fld_self, bits_fld_below, bits_fld_above]

@[simp] theorem bits_formatP_duration : bits (formatP l d) 0 27 = d := by
  simp [formatP, bits_or, bits_fld_self, bits_fld_below]

end

section

variable (sub : BitVec 4) (p : PktSel) (src : BitVec 2) (idx val : Byte)

@[simp] theorem bits_formatK_op : bits (formatK sub p src idx val) 28 4 = 2#4 := by
  simp [formatK, bits_or, bits_fld_self, bits_fld_above]

@[simp] theorem bits_formatK_sub : bits (formatK sub p src idx val) 24 4 = sub := by
  simp [formatK, bits_or, bits_fld_self, bits_fld_below, bits_fld_above]

@[simp] theorem bits_formatK_pkt : bits (formatK sub p src idx val) 23 1 = p.bit := by
  simp [formatK, bits_or, bits_fld_self, bits_fld_below, bits_fld_above]

@[simp] theorem bits_formatK_reserved : bits (formatK sub p src idx val) 18 5 = 0#5 := by
  simp [formatK, bits_or, bits_fld_below, bits_fld_above]

@[simp] theorem bits_formatK_src : bits (formatK sub p src idx val) 16 2 = src := by
  simp [formatK, bits_or, bits_fld_self, bits_fld_below, bits_fld_above]

@[simp] theorem bits_formatK_idx : bits (formatK sub p src idx val) 8 8 = idx := by
  simp [formatK, bits_or, bits_fld_self, bits_fld_below, bits_fld_above]

@[simp] theorem bits_formatK_val : bits (formatK sub p src idx val) 0 8 = val := by
  simp [formatK, bits_or, bits_fld_self, bits_fld_below]

end

section

variable (sub slot : BitVec 4) (q : BitVec 1) (lensel : BitVec 2) (maskOrIdx val : Byte)

@[simp] theorem bits_formatD_op : bits (formatD sub slot q lensel maskOrIdx val) 28 4 = 3#4 := by
  simp [formatD, bits_or, bits_fld_self, bits_fld_above]

@[simp] theorem bits_formatD_sub : bits (formatD sub slot q lensel maskOrIdx val) 24 4 = sub := by
  simp [formatD, bits_or, bits_fld_self, bits_fld_below, bits_fld_above]

@[simp] theorem bits_formatD_slot : bits (formatD sub slot q lensel maskOrIdx val) 20 4 = slot := by
  simp [formatD, bits_or, bits_fld_self, bits_fld_below, bits_fld_above]

@[simp] theorem bits_formatD_q : bits (formatD sub slot q lensel maskOrIdx val) 19 1 = q := by
  simp [formatD, bits_or, bits_fld_self, bits_fld_below, bits_fld_above]

@[simp] theorem bits_formatD_reserved : bits (formatD sub slot q lensel maskOrIdx val) 18 1 = 0#1 := by
  simp [formatD, bits_or, bits_fld_below, bits_fld_above]

@[simp] theorem bits_formatD_lensel : bits (formatD sub slot q lensel maskOrIdx val) 16 2 = lensel := by
  simp [formatD, bits_or, bits_fld_self, bits_fld_below, bits_fld_above]

@[simp] theorem bits_formatD_idx : bits (formatD sub slot q lensel maskOrIdx val) 8 8 = maskOrIdx := by
  simp [formatD, bits_or, bits_fld_self, bits_fld_below, bits_fld_above]

@[simp] theorem bits_formatD_val : bits (formatD sub slot q lensel maskOrIdx val) 0 8 = val := by
  simp [formatD, bits_or, bits_fld_self, bits_fld_below]

end

section

variable (sub : BitVec 4) (p : BitVec 1)

@[simp] theorem bits_formatT_op : bits (formatT sub p) 28 4 = 4#4 := by
  simp [formatT, bits_or, bits_fld_self, bits_fld_above]

@[simp] theorem bits_formatT_sub : bits (formatT sub p) 24 4 = sub := by
  simp [formatT, bits_or, bits_fld_self, bits_fld_below, bits_fld_above]

@[simp] theorem bits_formatT_pkt : bits (formatT sub p) 23 1 = p := by
  simp [formatT, bits_or, bits_fld_self, bits_fld_below]

@[simp] theorem bits_formatT_reserved : bits (formatT sub p) 0 23 = 0#23 := by
  simp [formatT, bits_or, bits_fld_below]

end

section

variable (sub r : BitVec 4) (v : Half)

@[simp] theorem bits_formatR_op : bits (formatR sub r v) 28 4 = 5#4 := by
  simp [formatR, bits_or, bits_fld_self, bits_fld_above]

@[simp] theorem bits_formatR_sub : bits (formatR sub r v) 24 4 = sub := by
  simp [formatR, bits_or, bits_fld_self, bits_fld_below, bits_fld_above]

@[simp] theorem bits_formatR_reserved : bits (formatR sub r v) 20 4 = 0#4 := by
  simp [formatR, bits_or, bits_fld_below, bits_fld_above]

@[simp] theorem bits_formatR_reg : bits (formatR sub r v) 16 4 = r := by
  simp [formatR, bits_or, bits_fld_self, bits_fld_below, bits_fld_above]

@[simp] theorem bits_formatR_value : bits (formatR sub r v) 0 16 = v := by
  simp [formatR, bits_or, bits_fld_self, bits_fld_below]

end

/-! ### The decoder on a word of each format -/

section

variable {w : Word}

theorem decode_of_op_one (h : bits w 28 4 = 1#4) : decode w = .ok (.pulse (levelOf (bits w 27 1)) (bits w 0 27)) := by
  simp only [decode, h]
  rfl

theorem decode_of_op_two (h : bits w 28 4 = 2#4) : decode w = decodeK w := by
  simp only [decode, h]
  rfl

theorem decode_of_op_three (h : bits w 28 4 = 3#4) : decode w = decodeD w := by
  simp only [decode, h]
  rfl

theorem decode_of_op_four (h : bits w 28 4 = 4#4) : decode w = decodeT w := by
  simp only [decode, h]
  rfl

theorem decode_of_op_five (h : bits w 28 4 = 5#4) : decode w = decodeR w := by
  simp only [decode, h]
  rfl

end

@[simp] theorem whenZero_true (i : Instr) : whenZero true i = .ok i := rfl

/-- Settles O1: the word of a command is a word of its format, whose fields read back the operands, and whose fields that must be
0 are 0. -/
theorem decodeOfEncode : Obligations.DecodeOfEncode := by
  intro i hwf
  cases i with
  | nop => rfl
  | pulse l d => simp [encode, decode_of_op_one]
  | ckgen p inverted => cases p <;> cases inverted <;> rfl
  | pnew | push | wrb | rdb | pinfo | ptime | page | inv | brev | ckcalc | pcopy =>
    simp [encode, decode_of_op_two, decodeK]
  | reg | disp | xfer | sinfo | srdb | sload => simp [encode, decode_of_op_three, decodeD]
  | enc | txpop | txabort => simp [encode, decode_of_op_four, decodeT]
  | rdreg | wrreg => simp [encode, decode_of_op_five, decodeR]
  | clrst v =>
    have hmask : clrstMaskOk v = true := hwf
    simp [encode, decode_of_op_five, decodeR, hmask]

/-! ### The words the decoder accepts -/

section

variable {w : Word}

/-- A word of format K is put together from its fields, when the reserved one is 0. -/
theorem formatK_bits (hop : bits w 28 4 = 2#4) (hrsv : bits w 18 5 = 0#5) :
    formatK (bits w 24 4) (pktSelOf (bits w 23 1)) (bits w 16 2) (bits w 8 8) (bits w 0 8) = w := by
  have hsplit := split_formatK w
  rw [hop, hrsv, fld_zero, BitVec.or_zero] at hsplit
  rw [formatK, bit_pktSelOf, hsplit]

theorem formatD_bits (hop : bits w 28 4 = 3#4) (hrsv : bits w 18 1 = 0#1) :
    formatD (bits w 24 4) (bits w 20 4) (bits w 19 1) (bits w 16 2) (bits w 8 8) (bits w 0 8) = w := by
  have hsplit := split_formatD w
  rw [hop, hrsv, fld_zero, BitVec.or_zero] at hsplit
  rw [formatD, hsplit]

theorem formatT_bits (hop : bits w 28 4 = 4#4) (hrsv : bits w 0 23 = 0#23) :
    formatT (bits w 24 4) (bits w 23 1) = w := by
  have hsplit := split_formatT w
  rw [hop, hrsv, fld_zero, BitVec.or_zero] at hsplit
  rw [formatT, hsplit]

theorem formatR_bits (hop : bits w 28 4 = 5#4) (hrsv : bits w 20 4 = 0#4) :
    formatR (bits w 24 4) (bits w 16 4) (bits w 0 16) = w := by
  have hsplit := split_formatR w
  rw [hop, hrsv, fld_zero, BitVec.or_zero] at hsplit
  rw [formatR, hsplit]

/-- A byte whose upper seven bits are 0 is its bit 0: CKGEN's `val` (spec/30_encoding.md R88). -/
theorem bits_val_of_flag (h : bits w 1 7 = 0#7) : bits w 0 8 = if bits w 0 1 == 1#1 then 1#8 else 0#8 := by
  have hsplit : bits w 0 8 = bits w 1 7 ++ bits w 0 1 := by
    apply BitVec.eq_of_getLsbD_eq
    intro i hi
    rw [BitVec.getLsbD_append, getLsbD_bits, getLsbD_bits, getLsbD_bits]
    rcases i with _ | i
    · simp
    · have hlt : i < 7 := by omega
      simp [hlt, hi, Nat.add_comm]
  rw [hsplit, h]
  generalize bits w 0 1 = b
  revert b
  decide

end

/-- The word is the word of the command, which is well formed. -/
def IsWordOf (w : Word) (i : Instr) : Prop := encode i = w ∧ i.wellFormed = true

/-- What the decoder read is a refusal, or the command whose word it is. -/
def ReadsBack (w : Word) (r : Except DecodeError Instr) : Prop := ∀ i, r = .ok i → IsWordOf w i

theorem readsBack_error (w : Word) (e : DecodeError) : ReadsBack w (.error e) := nofun

theorem readsBack_ok {w : Word} {i : Instr} (h : IsWordOf w i) : ReadsBack w (.ok i) := by
  rintro j ⟨⟩
  exact h

theorem readsBack_whenZero {w : Word} {ok : Bool} {i : Instr} (h : ok = true → IsWordOf w i) :
    ReadsBack w (whenZero ok i) := by
  intro j hj
  obtain ⟨hok, rfl⟩ := (whenZero_ok _ _ _).mp hj
  exact h hok

/-- A field as a number in its range. -/
theorem exists_field (w : Word) (lo n : Nat) : ∃ k < 2 ^ n, (bits w lo n).toNat = k ∧ bits w lo n = BitVec.ofNat n k :=
  ⟨_, (bits w lo n).isLt, rfl, by rw [BitVec.ofNat_toNat, BitVec.setWidth_eq]⟩

/-- Format K (spec/30_encoding.md R84, R88): the fields a command has no operand for are 0. -/
theorem decodeK_readsBack {w : Word} (hop : bits w 28 4 = 2#4) : ReadsBack w (decodeK w) := by
  have hword := formatK_bits hop
  obtain ⟨sub, hlt, hsub, hfield⟩ := exists_field w 24 4
  rw [hfield] at hword
  simp only [decodeK, hsub]
  interval_cases sub
  on_goal 10 =>
    refine readsBack_whenZero fun hok => ⟨?_, rfl⟩
    simp only [Bool.and_eq_true, beq_iff_eq] at hok
    obtain ⟨⟨⟨hrsv, hsrc⟩, hidx⟩, hhigh⟩ := hok
    rw [encode, ← bits_val_of_flag hhigh, ← hsrc, ← hidx]
    exact hword hrsv
  iterate 11
    · refine readsBack_whenZero fun hok => ⟨?_, rfl⟩
      simp only [Bool.and_eq_true, beq_iff_eq] at hok
      simpa [encode, hok] using hword (by simp [hok])
  all_goals exact readsBack_error _ _

/-- Format D (spec/30_encoding.md R85, R88). -/
theorem decodeD_readsBack {w : Word} (hop : bits w 28 4 = 3#4) : ReadsBack w (decodeD w) := by
  have hword := formatD_bits hop
  obtain ⟨sub, hlt, hsub, hfield⟩ := exists_field w 24 4
  rw [hfield] at hword
  simp only [decodeD, hsub]
  interval_cases sub
  iterate 6
    · refine readsBack_whenZero fun hok => ⟨?_, rfl⟩
      simp only [Bool.and_eq_true, beq_iff_eq] at hok
      simpa [encode, hok] using hword (by simp [hok])
  all_goals exact readsBack_error _ _

/-- Format T (spec/30_encoding.md R86, R88). -/
theorem decodeT_readsBack {w : Word} (hop : bits w 28 4 = 4#4) : ReadsBack w (decodeT w) := by
  have hword := formatT_bits hop
  obtain ⟨sub, hlt, hsub, hfield⟩ := exists_field w 24 4
  rw [hfield] at hword
  simp only [decodeT, hsub]
  interval_cases sub
  iterate 3
    · refine readsBack_whenZero fun hok => ⟨?_, rfl⟩
      simp only [Bool.and_eq_true, beq_iff_eq] at hok
      simpa [encode, hok] using hword (by simp [hok])
  all_goals exact readsBack_error _ _

/-- Format R (spec/30_encoding.md R87, R88): CLRST alone has an operand with bits that must be 0. -/
theorem decodeR_readsBack {w : Word} (hop : bits w 28 4 = 5#4) : ReadsBack w (decodeR w) := by
  have hword := formatR_bits hop
  obtain ⟨sub, hlt, hsub, hfield⟩ := exists_field w 24 4
  rw [hfield] at hword
  simp only [decodeR, hsub]
  interval_cases sub
  iterate 3
    · refine readsBack_whenZero fun hok => ?_
      simp only [Bool.and_eq_true, beq_iff_eq] at hok
      exact ⟨by simpa [encode, hok] using hword (by simp [hok]), by simp [Instr.wellFormed, hok]⟩
  all_goals exact readsBack_error _ _

/-- Settles O2: a word of each group is put together from its fields (`split_formatK` and its like), and those that must be 0
are. -/
theorem encodeOfDecode : Obligations.EncodeOfDecode := by
  intro w
  change ReadsBack w (decode w)
  obtain ⟨op, hlt, hop, hfield⟩ := exists_field w 28 4
  simp only [decode, hop]
  interval_cases op
  · by_cases hw : w = 0#32
    · simp only [if_pos hw]
      exact readsBack_ok ⟨hw.symm, rfl⟩
    · simp only [if_neg hw]
      exact readsBack_error _ _
  · have hword : formatP (levelOf (bits w 27 1)) (bits w 0 27) = w := by
      rw [formatP, bit_levelOf]
      exact hfield ▸ split_formatP w
    exact readsBack_ok ⟨hword, rfl⟩
  · exact decodeK_readsBack hfield
  · exact decodeD_readsBack hfield
  · exact decodeT_readsBack hfield
  · exact decodeR_readsBack hfield
  all_goals exact readsBack_error _ _

/-- Settles O3: the decoder run on each word. -/
theorem decodeReadsSpecWords : Obligations.DecodeReadsSpecWords := ⟨rfl, rfl, rfl, rfl, rfl, rfl, rfl⟩

end Sys2Proof.Machine

/-! PROOFS. Everything one command can do to the state (the rules of spec/41_pulse_codec.md to spec/44_control_regs.md, command by
command), said once, and what follows for every command: it completes, and which elements it leaves alone. -/

namespace Sys2Proof.Machine

/-! ### What one pulse record can do -/

/-- Outside a frame the decoder holds no bits (spec/10_state.md R40). -/
def Decoder.Quiet (dec : Decoder) : Prop :=
  dec.phase = .idle ∨ dec.phase = .headHigh → dec.tbits = 0#16 ∧ dec.sr = 0#8

/-- The outcomes of a pulse record: the decoder alone moves, the frame is aborted for a cause, or it is delivered. -/
inductive PulseEffect (s : State) : PulseOut → Prop
  | moves {dec : Decoder} {ev : Event} (hev : ev = .ignored ∨ ev = .accepted)
      (habuf : dec.abuf.length = s.dec.abuf.length) (hquiet : s.dec.Quiet → dec.Quiet) :
      PulseEffect s { state := { s with dec := dec }, ev := ev, cause := .none }
  | aborts {c : Cause} {ph : Phase} (hc : c ≠ .none) :
      PulseEffect s { state := (s.clearFrame.recordTerr c).setPhase ph, ev := .aborted, cause := c }
  | completes {n : Nat} :
      PulseEffect s
        { state := ({ s with rxp := s.delivered n }.recordRx (decide (s.params.cap < n))).clearFrame
          ev := .complete
          cause := .none }

theorem PulseOut.eq_mk {o : PulseOut} {u : State} {ev : Event} {c : Cause} (hst : o.state = u) (hev : o.ev = ev)
    (hcause : o.cause = c) : o = { state := u, ev := ev, cause := c } := by
  subst hst hev hcause
  rfl

section

variable (s : State)

theorem abort_effect {c : Cause} (hc : c ≠ .none) : PulseEffect s (s.abort c) := .aborts (ph := .idle) hc

theorem abortReeval_effect {c : Cause} (hc : c ≠ .none) (l : Level) (d : Duration) :
    PulseEffect s (s.abortReeval c l d) := by
  obtain ⟨hst, -⟩ | ⟨hst, -⟩ := abortReeval_state s c l d <;> rw [PulseOut.eq_mk hst rfl rfl]
  · exact .aborts hc
  · exact .aborts (ph := .idle) hc

theorem takeBit_effect (b : Bool) : PulseEffect s (s.takeBit b) := by
  obtain ⟨-, hout⟩ | ⟨-, abuf, hlen, hst, hev, hcause, -⟩ := takeBit_cases s b
  · exact hout ▸ abort_effect s nofun
  · rw [PulseOut.eq_mk hst hev hcause]
    exact .moves (.inr rfl) hlen nofun

theorem complete_effect : PulseEffect s s.complete := by
  obtain ⟨-, hout⟩ | ⟨-, -, hout⟩ | ⟨-, -, hout⟩ := complete_cases s <;> rw [hout]
  · exact abort_effect s nofun
  · exact abort_effect s nofun
  · exact .completes

/-- A phase advance keeps the bits; one that ends outside a frame starts from IDLE. -/
theorem advance_effect (ph : Phase) (h : ph = .headHigh → s.dec.phase = .idle) (hidle : ph ≠ .idle) :
    PulseEffect s (s.advance ph) := by
  refine .moves (.inr rfl) rfl fun hquiet => ?_
  rintro (hph | hph)
  · exact absurd hph hidle
  · exact hquiet (.inl (h hph))

theorem pulse_effect (l : Level) (d : Duration) : PulseEffect s (s.pulse l d) := by
  obtain ⟨-, heq⟩ | ⟨hph, heq⟩ | ⟨-, heq⟩ | ⟨-, heq⟩ | ⟨-, b, heq⟩ | ⟨-, heq⟩ | ⟨-, heq⟩ | ⟨-, c, hc, heq⟩ :=
    pulse_cases s l d <;> rw [heq]
  · exact .moves (.inl rfl) rfl id
  · exact advance_effect s .headHigh (fun _ => hph) nofun
  · exact .moves (.inr rfl) rfl nofun
  · exact advance_effect s .bitHigh nofun nofun
  · exact takeBit_effect s b
  · exact complete_effect s
  · exact abort_effect s nofun
  · refine abortReeval_effect s ?_ l d
    rintro rfl
    simp at hc

/-- "The decoder and the encoder share no state" (spec/70_reset_and_hazards.md R269), and a pulse record reaches nothing but the
decoder, RXP, the sticky flags and the counters. -/
theorem pulse_answer_keeps (l : Level) (d : Duration) :
    (s.pulse l d).answer.params = s.params ∧ (s.pulse l d).answer.freeIdx = s.freeIdx ∧
      (s.pulse l d).answer.enc = s.enc ∧ (s.pulse l d).answer.txp = s.txp ∧ (s.pulse l d).answer.reg = s.reg ∧
      (s.pulse l d).answer.lastDisp = s.lastDisp := by
  have heffect := pulse_effect s l d
  generalize s.pulse l d = o at heffect ⊢
  cases heffect <;> exact ⟨rfl, rfl, rfl, rfl, rfl, rfl⟩

end

/-! ### What one command can do -/

/-- The state after a dispatch that ends with the word `w` (spec/43_demux.md R183). -/
def State.dispatched (s : State) (w : Word) : State := { s with lastDisp := w, rsp := { status := .ok, data := w } }

/-- The next states a command may have, the response included. A packet register is set to a packet that fits its buffer, where
the state before has the invariant. -/
inductive Effect (s : State) : Instr → State → Prop
  | answers (i : Instr) (st : Status) (d : Word) : Effect s i (s.withRsp st d)
  | draws (i : Instr) : Effect s i (s.advanceFree.withRsp .ok (s.freeByte.setWidth 32))
  | pulses (l : Level) (d : Duration) : Effect s (.pulse l d) (s.pulse l d).answer
  | setsPacket (i : Instr) (p : PktSel) {q : Packet} (hq : s.Inv → q.Ok s.params) :
      Effect s i ((s.setPkt p q).withRsp .ok 0#32)
  | registers {val mask : Byte} {lensel : BitVec 2} (sel : LenSel) (d : Word)
      (hfree : s.reg.nreg.toNat ≠ s.params.nslot) :
      Effect s (.reg val mask lensel) ((s.register val mask sel).withRsp .ok d)
  | classifies {p : PktSel} (id : Byte) {k : DispKind} (hk : k ≠ .never) :
      Effect s (.disp p) (s.lockRegistry.dispatched (dispWord p id k))
  | stages {p : PktSel} (id : Byte) {i : Nat} (hi : SlotMatches s (s.pkt p) i) :
      Effect s (.disp p) ((s.lockRegistry.stage i (s.pkt p)).dispatched (dispWord p id .matched))
  | snapshots {slot : BitVec 4} (hslot : slot.toNat < s.params.nslot) (hreg : slot.toNat < s.reg.nreg.toNat) :
      Effect s (.xfer slot) ((s.setSlot slot.toNat (s.slot slot.toNat).transfer).withRsp .ok 0#32)
  | startsTx (p : PktSel) (d : Word) :
      Effect s (.enc p)
        (State.withRsp
          { s with
            enc :=
              { active := true
                cursor := 0#16
                total := BitVec.ofNat 16 (recCount (s.pkt p).len.toNat)
                txn := (s.pkt p).len
                txbuf := copyBytes (s.pkt p).len.toNat (s.pkt p).data s.enc.txbuf } }
          .ok d)
  | advancesTx (d : Word) (hact : s.enc.active = true) (hmore : s.enc.cursor + 1#16 ≠ s.enc.total) :
      Effect s .txpop (State.withRsp { s with enc := { s.enc with cursor := s.enc.cursor + 1#16 } } .ok d)
  | stopsTx (i : Instr) (d : Word) : Effect s i (s.stopTx.withRsp .ok d)
  | writesCfg (i : Instr) {v : Half} (hv : cfgReservedSet v = false ∧ cfgOutOfRange v = false) :
      Effect s i (State.withRsp { s with cfg := v } .ok 0#32)
  | clears (v : Half) : Effect s (.clrst v) ((s.clearSticky v).withRsp .ok 0#32)

/-- The outcome is a next state that is an effect of the command. -/
def Completes (s : State) (i : Instr) (r : Result) : Prop := ∃ t, r = .next t ∧ Effect s i t

section

variable {s : State} {i : Instr}

theorem respond_completes (d : Word) : Completes s i (s.respond d) := ⟨_, rfl, .answers i .ok d⟩

theorem raise_completes (st : Status) : Completes s i (s.raise st) := ⟨_, rfl, .answers i st 0#32⟩

theorem respondByte_effect (q : Packet) (idx : Byte) : Completes s i (s.respondByte q idx) := by
  obtain ⟨t, ht⟩ := respondByte_completes s q idx
  obtain ⟨-, rfl⟩ | ⟨-, rfl⟩ := (respondByte_eq_next s t q idx).mp ht
  · exact ⟨_, ht, .answers i .ok _⟩
  · exact ⟨_, ht, .draws i⟩

theorem ite_completes {c : Prop} [Decidable c] {r r' : Result} (h : c → Completes s i r) (h' : ¬c → Completes s i r') :
    Completes s i (if c then r else r') := by
  split
  next hc => exact h hc
  next hc => exact h' hc

/-- A guard that refuses the command. -/
theorem guard_completes {c : Prop} [Decidable c] {st : Status} {r : Result} (h : ¬c → Completes s i r) :
    Completes s i (if c then s.raise st else r) :=
  ite_completes (fun _ => raise_completes st) h

/-- A packet of the same shape fits the same buffer. -/
theorem Packet.Ok.of_sameMeta {p : Params} {q r : Packet} (hq : q.Ok p) (h : SameMeta q r) : r.Ok p := by
  obtain ⟨hdata, hlen, -⟩ := h
  exact ⟨hdata.trans hq.1, hlen ▸ hq.2⟩

/-- A command that sets a packet register to a packet of the shape it has. -/
theorem setPkt_completes (p : PktSel) {q : Packet} (h : SameMeta (s.pkt p) q) :
    Completes s i ((s.setPkt p q).respond 0#32) :=
  ⟨_, rfl, .setsPacket i p fun hinv => (hinv.pkt_ok p).of_sameMeta h⟩

/-- A packet that took one more byte still fits its buffer. -/
theorem Packet.Ok.push {p : Params} {q : Packet} (hq : q.Ok p) (hcap : p.cap ≤ 255) (val : Byte) :
    (q.push p.cap val).Ok p := by
  obtain ⟨hdata, hlen⟩ := hq
  by_cases hroom : q.len.toNat < p.cap
  · rw [push_of_lt _ _ _ hroom]
    exact ⟨(length_writeByte _ _ _).trans hdata, (toNat_len_add_one q p.cap hcap hroom).trans_le hroom⟩
  · rw [push_of_ge _ _ _ (Nat.not_lt.mp hroom)]
    exact ⟨hdata, hlen⟩

/-- A CFG value WRREG writes has no reserved bit and is in range (spec/44_control_regs.md R212). -/
theorem cfg_legal_of_written {r : BitVec 4} {v : Half} (hlegal : ¬wrregIllegal r v = true) (hlow : ¬8 ≤ r.toNat)
    (hrange : ¬cfgOutOfRange v = true) : cfgReservedSet v = false ∧ cfgOutOfRange v = false := by
  refine ⟨?_, Bool.not_eq_true _ ▸ hrange⟩
  rw [wrregIllegal_iff, ← cfgReservedSet_iff, not_or, not_and, not_and] at hlegal
  obtain ⟨hnum, hset⟩ := hlegal
  have hzero : r = 0#4 := BitVec.eq_of_toNat_eq (by simp only [BitVec.toNat_ofNat]; omega)
  exact Bool.not_eq_true _ ▸ hset hzero

end

/-- Each meaning, branch by branch, ends in one of the effects. -/
theorem exec_completes (i : Instr) (s : State) : Completes s i (exec i s) := by
  cases i with
  | nop | pinfo | ptime | page | ckcalc => exact respond_completes _
  | pulse l d => exact ⟨_, exec_pulse l d s, .pulses l d⟩
  | pnew p src =>
    exact ⟨_, rfl, .setsPacket _ p fun hi => ⟨(hi.pkt_ok p).1, Nat.zero_le _⟩⟩
  | push p val => exact ⟨_, rfl, .setsPacket _ p fun hi => (hi.pkt_ok p).push hi.params_legal.1.2 val⟩
  | wrb p idx val =>
    exact guard_completes fun _ => setPkt_completes p ⟨length_writeByte _ _ _, rfl, rfl, rfl, rfl⟩
  | rdb p idx => exact guard_completes fun _ => respondByte_effect _ idx
  | inv p => exact setPkt_completes p (mapData_sameMeta _ _)
  | brev p => exact setPkt_completes p (mapData_sameMeta _ _)
  | ckgen p inverted => exact setPkt_completes p (seal_sameMeta _ _ _)
  | pcopy p => exact ⟨_, rfl, .setsPacket _ p fun hi => hi.pkt_ok p.other⟩
  | reg val mask lensel =>
    simp only [exec, execReg]
    split
    · exact raise_completes _
    · exact guard_completes fun _ => guard_completes fun hfree => ⟨_, rfl, .registers _ _ hfree⟩
  | disp p =>
    by_cases hvalid : PacketValid s (s.pkt p)
    · cases hmatch : s.matchId (s.pkt p) with
      | none =>
        exact ⟨_, exec_disp_of_unknown hvalid ((matchId_eq_none s _).mp hmatch), .classifies _ nofun⟩
      | some i =>
        have hfirst := (matchId_eq_some s _ i).mp hmatch
        exact ⟨_, exec_disp_of_match hvalid hfirst, .stages _ hfirst.1⟩
    · exact ⟨_, exec_disp_of_invalid hvalid, .classifies _ nofun⟩
  | xfer slot =>
    refine guard_completes fun hout => ?_
    rw [xferOut_iff, not_or, Nat.not_le, Nat.not_le] at hout
    exact ⟨_, rfl, .snapshots hout.1 hout.2⟩
  | sinfo slot => exact guard_completes fun _ => ite_completes (fun _ => respond_completes _) fun _ => respond_completes _
  | srdb slot which idx =>
    refine guard_completes fun _ => ?_
    split
    · exact raise_completes _
    · exact respondByte_effect _ idx
  | sload slot p =>
    refine guard_completes fun hin => ite_completes (fun _ => ⟨_, rfl, .setsPacket _ p fun hi => ?_⟩) fun _ =>
      raise_completes _
    rw [slotOut_iff, Nat.not_le] at hin
    exact (hi.slot_packets _ hin).1
  | enc p => exact guard_completes fun _ => ⟨_, rfl, .startsTx p _⟩
  | txpop =>
    refine ite_completes (fun hact => ite_completes (fun _ => ⟨_, rfl, .stopsTx _ _⟩) fun hmore => ?_) fun _ =>
      respond_completes _
    exact ⟨_, rfl, .advancesTx _ hact hmore⟩
  | txabort => exact ⟨_, rfl, .stopsTx _ _⟩
  | rdreg r =>
    simp only [exec, execRdreg]
    split
    · exact respond_completes _
    · exact raise_completes _
  | wrreg r v =>
    exact guard_completes fun hlegal => guard_completes fun hlow => guard_completes fun hrange =>
      ⟨_, rfl, .writesCfg _ (cfg_legal_of_written hlegal hlow hrange)⟩
  | clrst v => exact ite_completes (fun _ => ⟨_, rfl, .clears v⟩) fun _ => raise_completes _

/-- Whatever a command answers is one of its effects. -/
theorem effect_of_exec {i : Instr} {s t : State} (h : exec i s = .next t) : Effect s i t := by
  obtain ⟨u, hu, heffect⟩ := exec_completes i s
  obtain rfl : t = u := Host.Outcome.next.inj (h.symm.trans hu)
  exact heffect

/-! ### What one step can do -/

/-- A step waits, resets, refuses a word, or runs a command on the sampled state. -/
theorem step_cases (s : State) :
    (s.inputs = [] ∧ step s = .next s) ∨
      (∃ rest, s.inputs = .reset :: rest ∧ step s = .next (s.applyReset rest)) ∨
      (∃ c rest, s.inputs = .command c :: rest ∧ step s = .next ((s.sample c rest).withRsp .illegal 0#32)) ∨
      ∃ c rest i, s.inputs = .command c :: rest ∧ step s = exec i (s.sample c rest) := by
  rcases hin : s.inputs with _ | ⟨_ | c, rest⟩
  · exact .inl ⟨rfl, by simp only [step, hin]⟩
  · exact .inr (.inl ⟨rest, rfl, by simp only [step, hin]⟩)
  · cases hdec : decode c.word with
    | error e => exact .inr (.inr (.inl ⟨c, rest, rfl, step_of_decode_error hin hdec⟩))
    | ok i => exact .inr (.inr (.inr ⟨c, rest, i, rfl, step_of_decode_ok hin hdec⟩))

/-- Settles O6: `step` with no input to take. -/
theorem stepWaitsWithoutInput : Obligations.StepWaitsWithoutInput := by
  intro s hin
  simp only [step, hin]

/-- Settles O7: `State.applyReset` written out. -/
theorem resetInputRestoresResetState : Obligations.ResetInputRestoresResetState := by
  intro s rest hin
  simp only [step, hin, State.applyReset]

/-- Settles O11: every command has an effect (`exec_completes`), and every case of `step_cases` has a next state. -/
theorem everyStepCompletes : Obligations.EveryStepCompletes := by
  have hexec (i : Instr) (s : State) : ∃ t, exec i s = .next t := by
    obtain ⟨t, ht, -⟩ := exec_completes i s
    exact ⟨t, ht⟩
  refine ⟨hexec, fun s => ?_⟩
  obtain ⟨-, h⟩ | ⟨rest, -, h⟩ | ⟨c, rest, -, h⟩ | ⟨c, rest, i, -, h⟩ := step_cases s
  · exact ⟨_, h⟩
  · exact ⟨_, h⟩
  · exact ⟨_, h⟩
  · rw [h]
    exact hexec i _

end Sys2Proof.Machine

/-! PROOFS. What every command keeps, from its effects: the elements no command but the named ones changes
(spec/00_scope.md R6, R9, spec/41_pulse_codec.md R112, spec/43_demux.md R190, spec/60_exceptions.md R236). -/

namespace Sys2Proof.Machine

/-! ### The parameters and the free bytes -/

/-- A command keeps the parameters, and draws at most one free byte, which it answers. -/
def DrawsAtMostOne (s t : State) : Prop :=
  t.params = s.params ∧
    (t.freeIdx = s.freeIdx ∨
      t.freeIdx = s.freeIdx + 1 ∧ t.rsp = { status := .ok, data := (Config.freeByte s.freeIdx).setWidth 32 })

theorem Effect.drawsAtMostOne {s t : State} {i : Instr} (h : Effect s i t) : DrawsAtMostOne s t := by
  cases h with
  | draws => exact ⟨rfl, .inr ⟨rfl, rfl⟩⟩
  | pulses l d =>
    obtain ⟨hparams, hfree, -⟩ := pulse_answer_keeps s l d
    exact ⟨hparams, .inl hfree⟩
  | setsPacket _ p => exact ⟨State.setPkt_params s p _, .inl (State.setPkt_freeIdx s p _)⟩
  | answers | registers | classifies | stages | snapshots | startsTx | advancesTx | stopsTx | writesCfg | clears =>
    exact ⟨rfl, .inl rfl⟩

theorem step_drawsAtMostOne {s t : State} (h : step s = .next t) : DrawsAtMostOne s t := by
  obtain ⟨-, hs⟩ | ⟨rest, -, hs⟩ | ⟨c, rest, -, hs⟩ | ⟨c, rest, i, -, hs⟩ := step_cases s <;> rw [hs] at h
  · cases h
    exact ⟨rfl, .inl rfl⟩
  · cases h
    exact ⟨rfl, .inl rfl⟩
  · cases h
    exact ⟨rfl, .inl rfl⟩
  · exact (effect_of_exec h).drawsAtMostOne

/-- A byte read at or above `len` draws a free byte. -/
theorem freeIdx_of_respondByte {s t : State} {q : Packet} {idx : Byte} (hundef : q.len.toNat ≤ idx.toNat)
    (h : s.respondByte q idx = .next t) : t.freeIdx = s.freeIdx + 1 := by
  obtain ⟨hdef, -⟩ | ⟨-, rfl⟩ := (respondByte_eq_next s t q idx).mp h
  · exact absurd hdef (Nat.not_lt.mpr hundef)
  · rfl

/-- Settles O13: a step draws at most one free byte (`step_drawsAtMostOne`), and RDB and SRDB come to `respondByte` on the
sampled state. -/
theorem parametersNeverChange : Obligations.ParametersNeverChange := by
  refine ⟨fun s t h => ?_, fun s t c rest p idx hin hdec hundef hlt h => ?_,
    fun s t c rest slot which idx q hin hdec hslot hq hundef hlt h => ?_⟩
  · obtain ⟨hparams, hfree⟩ := step_drawsAtMostOne h
    exact ⟨hparams, by omega, hfree⟩
  · rw [step_of_decode_ok hin hdec, exec_rdb_of_lt (s := s.sample c rest) p hlt, State.sample_pkt] at h
    exact (freeIdx_of_respondByte hundef h :)
  · have hpacket : ((s.sample c rest).slot slot.toNat).packet? which = some q := by
      rw [State.sample_slot]
      obtain ⟨rfl, hhas, rfl⟩ | ⟨rfl, hhas, rfl⟩ := hq
      · exact if_pos hhas
      · exact if_pos hhas
    rw [step_of_decode_ok hin hdec, exec_srdb_of_present (s := s.sample c rest) hslot hlt hpacket] at h
    exact (freeIdx_of_respondByte hundef h :)

/-! ### The sticky flags -/

/-- Every sticky flag and the cause stay set. -/
def Sticky.StaysSet (f g : Sticky) : Prop :=
  (f.rxReady = true → g.rxReady = true) ∧ (f.terr = true → g.terr = true) ∧ (f.rxOvf = true → g.rxOvf = true) ∧
    (f.lastTerr ≠ .none → g.lastTerr ≠ .none)

theorem Sticky.staysSet_of_eq {f g : Sticky} (h : g = f) : f.StaysSet g := by
  subst h
  exact ⟨id, id, id, id⟩

/-- A pulse record clears no flag: an abort sets TERR with a cause, a delivery sets RX_READY and at most RX_OVF. -/
theorem pulse_staysSet (s : State) (l : Level) (d : Duration) : s.flags.StaysSet (s.pulse l d).answer.flags := by
  have heffect := pulse_effect s l d
  generalize s.pulse l d = o at heffect ⊢
  cases heffect with
  | moves => exact Sticky.staysSet_of_eq rfl
  | aborts hc => exact ⟨id, fun _ => rfl, id, fun _ => hc⟩
  | completes => exact ⟨fun _ => rfl, id, fun h => by simp [PulseOut.answer, h], id⟩

theorem Effect.staysSet {s t : State} {i : Instr} (h : Effect s i t) (hi : ∀ v, i ≠ .clrst v) :
    s.flags.StaysSet t.flags := by
  cases h with
  | clears v => exact absurd rfl (hi v)
  | pulses l d => exact pulse_staysSet s l d
  | setsPacket _ p => exact Sticky.staysSet_of_eq (State.setPkt_flags s p _)
  | answers | draws | registers | classifies | stages | snapshots | startsTx | advancesTx | stopsTx | writesCfg =>
    exact Sticky.staysSet_of_eq rfl

/-- Settles O14: no effect but the one of CLRST clears a flag. -/
theorem onlyClrstClearsStickyFlags : Obligations.OnlyClrstClearsStickyFlags :=
  fun _ _ _ h hi => (effect_of_exec h).staysSet hi

/-! ### The decoder -/

theorem Effect.dec_eq {s t : State} {i : Instr} (h : Effect s i t) (hi : ∀ l d, i ≠ .pulse l d) : t.dec = s.dec := by
  cases h with
  | pulses l d => exact absurd rfl (hi l d)
  | setsPacket _ p => exact State.setPkt_dec s p _
  | answers | draws | registers | classifies | stages | snapshots | startsTx | advancesTx | stopsTx | writesCfg | clears =>
    rfl

/-- Settles O15: no effect but the one of PULSE moves the decoder, and that one keeps what `pulse_answer_keeps` names. -/
theorem onlyPulseMovesDecoder : Obligations.OnlyPulseMovesDecoder := by
  refine fun i s t h => ⟨(effect_of_exec h).dec_eq, ?_⟩
  rintro l d rfl
  obtain rfl : (s.pulse l d).answer = t := Host.Outcome.next.inj ((exec_pulse l d s).symm.trans h)
  obtain ⟨-, -, henc, htxp, hreg, hlast⟩ := pulse_answer_keeps s l d
  exact ⟨henc, htxp, hreg, hlast⟩

/-! ### The registered slots -/

/-- A slot keeps its matcher, and the packets it has. -/
def Slot.StaysStaged (sl sl' : Slot) : Prop :=
  sl'.val = sl.val ∧ sl'.mask = sl.mask ∧ sl'.lensel = sl.lensel ∧ (sl.hasCur = true → sl'.hasCur = true) ∧
    (sl.hasPrev = true → sl'.hasPrev = true)

theorem Slot.staysStaged_rfl (sl : Slot) : sl.StaysStaged sl := ⟨rfl, rfl, rfl, id, id⟩

theorem transfer_staysStaged (sl : Slot) : sl.StaysStaged sl.transfer := by
  refine ⟨transfer_val sl, transfer_mask sl, transfer_lensel sl, by simp, fun h => ?_⟩
  cases hcur : sl.hasCur
  · rw [transfer_of_not_hasCur sl hcur, h]
  · rw [transfer_of_hasCur sl hcur]

/-- A slot set to a value that keeps its matcher and packets, the other slots being as before. -/
theorem setSlot_staysStaged (s : State) {i : Nat} {v : Slot} (hv : (s.slot i).StaysStaged v)
    (hlt : i < s.reg.slots.length) (k : Nat) : (s.slot k).StaysStaged ((s.setSlot i v).slot k) := by
  by_cases hk : k = i
  · subst hk
    rwa [State.setSlot_slot_self s k v hlt]
  · rw [State.setSlot_slot_ne s i k v hk]
    exact Slot.staysStaged_rfl _

/-- NREG never falls, and the registered slots stay as they are staged. -/
def Registry.Grows (s t : State) : Prop :=
  s.reg.nreg.toNat ≤ t.reg.nreg.toNat ∧ ∀ k < s.reg.nreg.toNat, (s.slot k).StaysStaged (t.slot k)

theorem Registry.grows_of_eq {s t : State} (hreg : t.reg = s.reg) (hparams : t.params = s.params) : Registry.Grows s t := by
  have hslot (k : Nat) : t.slot k = s.slot k := by rw [State.slot, hreg, hparams, State.slot]
  refine ⟨hreg ▸ le_rfl, fun k _ => ?_⟩
  rw [hslot k]
  exact Slot.staysStaged_rfl _

/-- Below NREG only a staging and an XFER write a slot; a registration writes the slot NREG. -/
theorem Effect.grows {s t : State} {i : Instr} (hinv : s.Inv) (h : Effect s i t) : Registry.Grows s t := by
  cases h with
  | pulses l d =>
    obtain ⟨hparams, -, -, -, hreg, -⟩ := pulse_answer_keeps s l d
    exact Registry.grows_of_eq hreg hparams
  | setsPacket _ p => exact Registry.grows_of_eq (State.setPkt_reg s p _) (State.setPkt_params s p _)
  | @registers val mask _ sel d hfree =>
    have hlt : s.reg.nreg.toNat < s.params.nslot := lt_of_le_of_ne hinv.nreg_le hfree
    refine ⟨(Nat.le_succ _).trans_eq (toNat_nreg_add_one hinv hlt).symm, fun k hk => ?_⟩
    have hkeep : (s.register val mask sel).slot k = s.slot k := State.setSlot_slot_ne s _ k _ hk.ne
    rw [State.withRsp_slot, hkeep]
    exact Slot.staysStaged_rfl _
  | stages id hi =>
    obtain ⟨-, hlt, -⟩ := hi.lt_sixteen hinv
    refine ⟨le_rfl, fun k _ => setSlot_staysStaged s.lockRegistry ?_ hlt k⟩
    exact ⟨rfl, rfl, rfl, fun _ => rfl, fun h => h⟩
  | snapshots hslot =>
    exact ⟨le_rfl, fun k _ => setSlot_staysStaged s (transfer_staysStaged _) (hinv.lt_slots_length hslot) k⟩
  | classifies => exact ⟨le_rfl, fun k _ => Slot.staysStaged_rfl _⟩
  | answers | draws | startsTx | advancesTx | stopsTx | writesCfg | clears => exact Registry.grows_of_eq rfl rfl

/-- Settles O17: `Effect.grows`. -/
theorem stagedSlotStaysStaged : Obligations.StagedSlotStaysStaged :=
  fun _ _ _ hinv h => (effect_of_exec h).grows hinv

end Sys2Proof.Machine

/-! PROOFS. The invariant of spec/10_state.md R40: it holds after reset, every effect of a command keeps it, and so does every
step. -/

namespace Sys2Proof.Machine

/-! ### Reset -/

/-- A slot of the reset state, inside the registry or past it. -/
@[simp] theorem resetWith_slot (p : Params) (i : Nat) : (State.resetWith p).slot i = Slot.reset p.cap := by
  simp [State.slot, State.resetWith, List.getD_eq_getElem?_getD, List.getElem?_replicate]
  split <;> rfl

theorem Packet.reset_ok (p : Params) : (Packet.reset p.cap).Ok p := ⟨List.length_replicate, Nat.zero_le _⟩

/-- The tolerance reset value makes a legal CFG (spec/00_scope.md R6, spec/10_state.md R29). -/
theorem cfg_legal_of_tolReset {tol : BitVec 7} (h : tol ≤ 100#7) :
    cfgReservedSet (tol.setWidth 16) = false ∧ cfgOutOfRange (tol.setWidth 16) = false := by
  revert tol
  decide

/-- Settles O8: each row of the table of reset values, read from `State.resetWith`. -/
theorem resetValues : Obligations.ResetValues := by
  refine ⟨fun p => ?_, rfl⟩
  refine ⟨fun r => ?_, ⟨rfl, rfl, rfl⟩, ⟨rfl, rfl, rfl, rfl⟩, ⟨rfl, rfl⟩, fun i _ => ?_, ?_, rfl, rfl, rfl, rfl⟩
  · cases r <;> exact ⟨rfl, rfl, rfl, rfl⟩
  · rw [resetWith_slot]
    refine ⟨rfl, rfl, rfl, rfl, rfl, fun w => ?_⟩
    cases w <;> exact ⟨rfl, rfl, rfl, rfl⟩
  · simp [State.statusWord, State.irq, State.resetWith, flagBit, Cause.code, Phase.code]

/-- Settles O9: no array, flag or counter of the reset state breaks a clause; CFG is legal since the tolerance is
(`cfg_legal_of_tolReset`). -/
theorem resetSatisfiesInvariant : Obligations.ResetSatisfiesInvariant := by
  intro p hp
  obtain ⟨-, -, -, -, -, -, -, -, -, -, -, -, htol⟩ := id hp
  exact {
    params_legal := hp
    rxp_ok := Packet.reset_ok p
    txp_ok := Packet.reset_ok p
    abuf_length := List.length_replicate
    txbuf_length := List.length_replicate
    slots_length := List.length_replicate
    nreg_le := Nat.zero_le _
    slot_packets := fun i _ => by
      rw [resetWith_slot]
      exact ⟨Packet.reset_ok p, Packet.reset_ok p⟩
    unregistered_empty := fun i _ _ => by
      rw [resetWith_slot]
      exact ⟨rfl, rfl⟩
    prev_needs_cur := fun i _ => by
      rw [resetWith_slot]
      exact nofun
    no_bits_outside_frame := fun _ => ⟨rfl, rfl⟩
    tx_idle := fun _ => ⟨rfl, rfl⟩
    tx_active := nofun
    txn_le := Nat.zero_le _
    lock_disp := iff_of_true rfl (by decide : (0x0000FF03#32).extractLsb' 0 2 = 3#2)
    cfg_legal := cfg_legal_of_tolReset htol
    terr_cause := iff_of_true rfl rfl }

/-! ### One element changed -/

section

variable {s : State}

/-- The response, the sampled inputs, the pending inputs, the counters and the count of free bytes are free. -/
theorem State.Inv.free_fields (hi : s.Inv) (terrCnt rxCnt : Half) (rsp : Response) (nowMs : Word) (rxSrc : Source)
    (inputs : List HostInput) (freeIdx : Nat) :
    State.Inv
      { s with
        terrCnt := terrCnt, rxCnt := rxCnt, rsp := rsp, nowMs := nowMs, rxSrc := rxSrc, inputs := inputs,
        freeIdx := freeIdx } :=
  { hi with }

theorem State.Inv.withRsp (hi : s.Inv) (st : Status) (d : Word) : (s.withRsp st d).Inv := hi.free_fields ..

theorem State.Inv.setPkt (hi : s.Inv) (p : PktSel) {q : Packet} (hq : q.Ok s.params) : (s.setPkt p q).Inv := by
  cases p
  · exact { hi with rxp_ok := hq }
  · exact { hi with txp_ok := hq }

theorem State.Inv.setFlags (hi : s.Inv) {f : Sticky} (hf : f.terr = false ↔ f.lastTerr = .none) :
    State.Inv { s with flags := f } :=
  { hi with terr_cause := hf }

theorem State.Inv.setDec (hi : s.Inv) {dec : Decoder} (habuf : dec.abuf.length = s.dec.abuf.length) (hquiet : dec.Quiet) :
    State.Inv { s with dec := dec } :=
  { hi with abuf_length := habuf.trans hi.abuf_length, no_bits_outside_frame := hquiet }

theorem State.Inv.setCfg (hi : s.Inv) {v : Half} (hv : cfgReservedSet v = false ∧ cfgOutOfRange v = false) :
    State.Inv { s with cfg := v } :=
  { hi with cfg_legal := hv }

/-- A slot set to a value that fits its buffers, has packets only when registered, and no previous packet alone. -/
theorem State.Inv.setSlot (hi : s.Inv) (i : Nat) {v : Slot} (hcur : v.cur.Ok s.params) (hprev : v.prev.Ok s.params)
    (hempty : s.reg.nreg.toNat ≤ i → v.hasCur = false ∧ v.hasPrev = false) (hneeds : v.hasPrev = true → v.hasCur = true) :
    (s.setSlot i v).Inv := by
  have hslot {k : Nat} (hk : k < s.params.nslot) : (s.setSlot i v).slot k = if k = i then v else s.slot k := by
    split
    next hki => exact hki ▸ State.setSlot_slot_self s i v (hi.lt_slots_length (hki ▸ hk))
    next hki => exact State.setSlot_slot_ne s i k v hki
  exact {
    hi with
    slots_length := (State.setSlot_slots_length s i v).trans hi.slots_length
    slot_packets := fun k hk => by
      rw [hslot hk]
      split
      · exact ⟨hcur, hprev⟩
      · exact hi.slot_packets k hk
    unregistered_empty := fun k hk hun => by
      rw [hslot hk]
      split
      next hki => exact hempty (hki ▸ hun)
      next => exact hi.unregistered_empty k hk hun
    prev_needs_cur := fun k hk => by
      rw [hslot hk]
      split
      · exact hneeds
      · exact hi.prev_needs_cur k hk }

/-- The slot NREG, empty with a new matcher, and NREG one higher. -/
theorem State.Inv.register (hi : s.Inv) (val mask : Byte) (sel : LenSel) (hfree : s.reg.nreg.toNat ≠ s.params.nslot) :
    (s.register val mask sel).Inv := by
  have hlt : s.reg.nreg.toNat < s.params.nslot := lt_of_le_of_ne hi.nreg_le hfree
  have hnreg := toNat_nreg_add_one hi hlt
  obtain ⟨hcur, hprev⟩ := hi.slot_packets _ hlt
  have hset := hi.setSlot s.reg.nreg.toNat
    (v := { s.slot s.reg.nreg.toNat with val := val, mask := mask, lensel := sel, hasCur := false, hasPrev := false })
    hcur hprev (fun _ => ⟨rfl, rfl⟩) nofun
  exact {
    hset with
    nreg_le := hnreg.trans_le hlt
    unregistered_empty := fun k hk hun => hset.unregistered_empty k hk (Nat.le_of_succ_le (hnreg.symm.trans_le hun)) }

/-- A slot that matches takes a packet that fits. -/
theorem State.Inv.stage (hi : s.Inv) {i : Nat} {q : Packet} (hm : SlotMatches s q i) (hq : q.Ok s.params) :
    (s.stage i q).Inv := by
  obtain ⟨hlt, -⟩ := hm.lt_sixteen hi
  exact hi.setSlot i hq (hi.slot_packets i hlt).2 (fun hun => absurd hm.1 (Nat.not_lt.mpr hun)) fun _ => rfl

theorem State.Inv.transfer (hi : s.Inv) {i : Nat} (hlt : i < s.params.nslot) (hreg : i < s.reg.nreg.toNat) :
    (s.setSlot i (s.slot i).transfer).Inv := by
  obtain ⟨hcur, hprev⟩ := hi.slot_packets i hlt
  have hunreg : ¬s.reg.nreg.toNat ≤ i := Nat.not_le.mpr hreg
  cases hhas : (s.slot i).hasCur
  · rw [transfer_of_not_hasCur _ hhas]
    exact hi.setSlot i hcur hprev (absurd · hunreg) (hi.prev_needs_cur i hlt)
  · rw [transfer_of_hasCur _ hhas]
    exact hi.setSlot i hcur hcur (absurd · hunreg) fun _ => hhas

/-- The registry is locked as LASTDISP takes the word of a dispatch. -/
theorem State.Inv.dispatched (hi : s.Inv) {w : Word} (hw : w.extractLsb' 0 2 ≠ 3#2) :
    (s.lockRegistry.dispatched w).Inv :=
  { hi with lock_disp := iff_of_false nofun hw }

/-- The kind of a dispatch stands in the low bits of its word. -/
theorem dispWord_kind (p : PktSel) (id : Byte) (k : DispKind) : (dispWord p id k).extractLsb' 0 2 = k.code := by
  rw [← bits]
  simp [dispWord, bits_or, bits_fld_self, bits_fld_below]

theorem DispKind.code_ne_three {k : DispKind} (h : k ≠ .never) : k.code ≠ 3#2 := by
  revert h
  cases k <;> decide

/-- An encoder with no frame to send. -/
theorem State.Inv.stopTx (hi : s.Inv) : s.stopTx.Inv :=
  { hi with tx_idle := fun _ => ⟨rfl, rfl⟩, tx_active := nofun, txn_le := Nat.zero_le _ }

/-- An encoder at the first record of a packet that fits. -/
theorem State.Inv.startTx (hi : s.Inv) {q : Packet} (hq : q.Ok s.params) :
    State.Inv
      { s with
        enc :=
          { active := true
            cursor := 0#16
            total := BitVec.ofNat 16 (recCount q.len.toNat)
            txn := q.len
            txbuf := copyBytes q.len.toNat q.data s.enc.txbuf } } :=
  { hi with
    txbuf_length := (length_copyBytes _ _ _).trans hi.txbuf_length
    tx_idle := nofun
    tx_active := fun _ => ⟨(toNat_recCount q.len).symm ▸ Nat.succ_pos _, toNat_recCount q.len⟩
    txn_le := hq.2 }

/-- An encoder at the next record, which is not past the last. -/
theorem State.Inv.advanceTx (hi : s.Inv) (hact : s.enc.active = true) (hmore : s.enc.cursor + 1#16 ≠ s.enc.total) :
    State.Inv { s with enc := { s.enc with cursor := s.enc.cursor + 1#16 } } := by
  obtain ⟨hlt, htotal⟩ := hi.tx_active hact
  have hnext := toNat_cursor_add_one hi hact
  have hne : (s.enc.cursor + 1#16).toNat ≠ s.enc.total.toNat := mt BitVec.eq_of_toNat_eq hmore
  have hlt' : (s.enc.cursor + 1#16).toNat < s.enc.total.toNat := by omega
  exact { hi with tx_idle := fun h => absurd hact (h ▸ nofun), tx_active := fun _ => ⟨hlt', htotal⟩ }

/-- A delivered packet fits its buffer. -/
theorem delivered_ok (hi : s.Inv) (n : Nat) : (s.delivered n).Ok s.params := by
  refine ⟨(length_copyBytes _ _ _).trans hi.rxp_ok.1, ?_⟩
  rw [toNat_delivered_len s n hi.params_legal.1.2]
  exact Nat.min_le_right _ _

/-- No pulse record breaks the invariant: an abort and a delivery leave a quiet decoder, and an abort sets TERR with a cause. -/
theorem State.Inv.pulse (hi : s.Inv) (l : Level) (d : Duration) : (s.pulse l d).answer.Inv := by
  have heffect := pulse_effect s l d
  generalize s.pulse l d = o at heffect ⊢
  cases heffect with
  | moves _ habuf hquiet => exact (hi.setDec habuf (hquiet hi.no_bits_outside_frame)).free_fields ..
  | @aborts _ ph hc =>
    have hdec := hi.setDec (dec := { s.dec with phase := ph, tbits := 0#16, sr := 0#8 }) rfl fun _ => ⟨rfl, rfl⟩
    exact (hdec.setFlags (f := { s.flags with terr := true, lastTerr := _ }) (iff_of_false nofun hc)).free_fields ..
  | @completes n =>
    have hrxp := hi.setPkt .rx (delivered_ok hi n)
    have hdec := hrxp.setDec (dec := { s.dec with phase := .idle, tbits := 0#16, sr := 0#8 }) rfl fun _ => ⟨rfl, rfl⟩
    exact (hdec.setFlags (f := { s.flags with rxReady := true, rxOvf := _ }) hi.terr_cause).free_fields ..

/-- TERR and its cause are cleared together (spec/44_control_regs.md R213). -/
theorem State.Inv.clearSticky (hi : s.Inv) (v : Half) : (s.clearSticky v).Inv := by
  have hflags := hi.setFlags (f := (s.clearSticky v).flags) (by
    have hcause := hi.terr_cause
    rw [State.clearSticky_flags]
    cases hbit : v.getLsbD 1 <;> simp [hcause])
  exact hflags.free_fields ..

end

/-! ### Every effect and every step -/

theorem Effect.inv {s t : State} {i : Instr} (hi : s.Inv) (h : Effect s i t) : t.Inv := by
  cases h with
  | answers => exact hi.withRsp _ _
  | draws => exact hi.free_fields ..
  | pulses l d => exact hi.pulse l d
  | setsPacket _ p hq => exact (hi.setPkt p (hq hi)).withRsp _ _
  | registers sel _ hfree => exact (hi.register _ _ sel hfree).withRsp _ _
  | classifies id hk => exact hi.dispatched ((dispWord_kind _ id _).trans_ne (DispKind.code_ne_three hk))
  | @stages p id i hm =>
    exact (hi.stage hm (hi.pkt_ok p)).dispatched ((dispWord_kind _ id _).trans_ne (DispKind.code_ne_three nofun))
  | snapshots hslot hreg => exact (hi.transfer hslot hreg).withRsp _ _
  | startsTx p => exact (hi.startTx (hi.pkt_ok p)).withRsp _ _
  | advancesTx _ hact hmore => exact (hi.advanceTx hact hmore).withRsp _ _
  | stopsTx => exact hi.stopTx.withRsp _ _
  | writesCfg _ hv => exact (hi.setCfg hv).withRsp _ _
  | clears v => exact (hi.clearSticky v).withRsp _ _

/-- Settles O10: a wait changes nothing, a reset leads to a reset state, and a command runs on the sampled state with one of its
effects (`Effect.inv`). -/
theorem stepKeepsInvariant : Obligations.StepKeepsInvariant := by
  intro s t hi h
  obtain ⟨-, hs⟩ | ⟨rest, -, hs⟩ | ⟨c, rest, -, hs⟩ | ⟨c, rest, i, -, hs⟩ := step_cases s <;> rw [hs] at h
  · cases h
    exact hi
  · cases h
    exact (resetSatisfiesInvariant s.params hi.params_legal).free_fields ..
  · cases h
    exact hi.free_fields ..
  · have hsample : (s.sample c rest).Inv := hi.free_fields ..
    exact (effect_of_exec h).inv hsample

end Sys2Proof.Machine

/-! PROOFS. Register reads and CLRST (spec/44_control_regs.md R211, R213), STATUS and `irq` (spec/10_state.md R30, R39), and the
commands without a side effect (spec/20_memory.md R67). -/

namespace Sys2Proof.Machine

/-! ### RDREG -/

section

variable {s : State} {r : BitVec 4}

theorem exec_rdreg_of_some {d : Word} (h : s.readReg r = some d) : exec (.rdreg r) s = .next (s.withRsp .ok d) := by
  simp only [exec, execRdreg, h, State.respond]

theorem exec_rdreg_of_none (h : s.readReg r = none) : exec (.rdreg r) s = .next (s.withRsp .range 0#32) := by
  simp only [exec, execRdreg, h, State.raise]

end

/-- TXCUR is the pair `{total, cursor}` (spec/10_state.md R35). -/
theorem txCur_eq (s : State) : s.txCur = s.enc.total ++ s.enc.cursor := by
  apply BitVec.eq_of_getLsbD_eq
  intro i hi
  rw [State.txCur, BitVec.getLsbD_or, getLsbD_fld, getLsbD_fld, BitVec.getLsbD_append]
  by_cases hlow : i < 16
  · have hle : ¬16 ≤ i := Nat.not_le.mpr hlow
    simp [hi, hlow, hle]
  · have hle : 16 ≤ i := Nat.not_lt.mp hlow
    simp [hi, hlow, hle]

/-- Settles O57: `State.readReg` names a register exactly below 8 (`readReg_eq_none`). -/
theorem rdregReadsRegister : Obligations.RdregReadsRegister := by
  intro r s
  refine ⟨by simp [encode, formatR_eq], ?_⟩
  cases h : s.readReg r with
  | none =>
    have hout : 8 ≤ r.toNat := (readReg_eq_none s r).mp h
    have hne {q : BitVec 4} {P : Prop} (hq : q.toNat < 8) (hr : r = q) : P := absurd (hr ▸ hq) (Nat.not_lt.mpr hout)
    exact ⟨_, exec_rdreg_of_none h, hne (by decide), hne (by decide), hne (by decide), hne (by decide), hne (by decide),
      hne (by decide), hne (by decide), hne (by decide), fun _ => rfl⟩
  | some d =>
    have hread {q : BitVec 4} {v : Word} (hv : s.readReg q = some v) (hr : r = q) :
        OnlyResponse s (s.withRsp .ok d) .ok v := by
      rw [hr, hv, Option.some.injEq] at h
      exact h ▸ rfl
    refine ⟨_, exec_rdreg_of_some h, hread rfl, hread rfl, hread rfl, hread rfl, hread rfl, hread rfl,
      hread (congrArg some (txCur_eq s)), hread rfl, fun hout => ?_⟩
    rw [(readReg_eq_none s r).mpr hout] at h
    contradiction

/-! ### STATUS -/

section

variable (s : State)

theorem bits_statusWord_rxReady : bits s.statusWord 0 1 = flagBit s.flags.rxReady := by
  simp [State.statusWord, bits_or, bits_fld_self, bits_fld_below]

theorem bits_statusWord_terr : bits s.statusWord 1 1 = flagBit s.flags.terr := by
  simp [State.statusWord, bits_or, bits_fld_self, bits_fld_below, bits_fld_above]

theorem bits_statusWord_rxOvf : bits s.statusWord 2 1 = flagBit s.flags.rxOvf := by
  simp [State.statusWord, bits_or, bits_fld_self, bits_fld_below, bits_fld_above]

theorem bits_statusWord_txActive : bits s.statusWord 3 1 = flagBit s.enc.active := by
  simp [State.statusWord, bits_or, bits_fld_self, bits_fld_below, bits_fld_above]

theorem bits_statusWord_regLock : bits s.statusWord 4 1 = flagBit s.reg.lock := by
  simp [State.statusWord, bits_or, bits_fld_self, bits_fld_below, bits_fld_above]

theorem bits_statusWord_irq : bits s.statusWord 5 1 = flagBit s.irq := by
  simp [State.statusWord, bits_or, bits_fld_self, bits_fld_below, bits_fld_above]

theorem bits_statusWord_reserved6 : bits s.statusWord 6 2 = 0#2 := by
  simp [State.statusWord, bits_or, bits_fld_below, bits_fld_above]

theorem bits_statusWord_nreg : bits s.statusWord 8 5 = s.reg.nreg := by
  simp [State.statusWord, bits_or, bits_fld_self, bits_fld_below, bits_fld_above]

theorem bits_statusWord_decPhase : bits s.statusWord 13 3 = s.dec.phase.code := by
  simp [State.statusWord, bits_or, bits_fld_self, bits_fld_below, bits_fld_above]

theorem bits_statusWord_lastTerr : bits s.statusWord 16 4 = s.flags.lastTerr.code := by
  simp [State.statusWord, bits_or, bits_fld_self, bits_fld_above]

theorem bits_statusWord_reserved20 : bits s.statusWord 20 12 = 0#12 := by
  simp [State.statusWord, bits_or, bits_fld_above]

/-- The interrupt line: an enabled source is pending (spec/10_state.md R39). -/
theorem irq_iff :
    s.irq = true ↔
      (s.flags.rxReady = true ∧ s.cfg.getLsbD 12 = true) ∨ (s.flags.terr = true ∧ s.cfg.getLsbD 13 = true) := by
  rw [State.irq, Bool.or_eq_true, Bool.and_eq_true, Bool.and_eq_true, cfgIeRx, cfgIeTerr]

end

/-- Settles O19: each field of the STATUS word is the element it shows. -/
theorem statusRegisterFields : Obligations.StatusRegisterFields := by
  intro s
  have hirq : s.statusWord.getLsbD 5 = s.irq := getLsbD_of_bits_eq_flagBit (bits_statusWord_irq s)
  exact ⟨_, exec_rdreg_of_some rfl, rfl,
    ⟨getLsbD_of_bits_eq_flagBit (bits_statusWord_rxReady s), getLsbD_of_bits_eq_flagBit (bits_statusWord_terr s),
      getLsbD_of_bits_eq_flagBit (bits_statusWord_rxOvf s), getLsbD_of_bits_eq_flagBit (bits_statusWord_txActive s),
      getLsbD_of_bits_eq_flagBit (bits_statusWord_regLock s)⟩,
    hirq ▸ irq_iff s, iff_of_eq (congrArg (· = true) hirq), bits_statusWord_reserved6 s, bits_statusWord_nreg s,
    bits_statusWord_decPhase s, bits_statusWord_lastTerr s, bits_statusWord_reserved20 s⟩

/-! ### CLRST -/

/-- A mask of a 16-bit value is a mask of the value as a word. -/
theorem setWidth_and_eq_zero (v m : Half) : v.setWidth 32 &&& m.setWidth 32 = 0#32 ↔ v &&& m = 0#16 := by
  rw [← BitVec.setWidth_and, BitVec.toNat_eq, BitVec.toNat_eq, BitVec.toNat_setWidth_of_le (by omega)]
  rfl

/-- The bits of the clear mask that must be 0 are bits [13:3] (spec/44_control_regs.md R213). -/
theorem clrstMaskOk_iff (v : Half) : clrstMaskOk v = true ↔ v &&& 0x3FF8#16 = 0#16 := by
  have hfield : bits (v.setWidth 32) 3 11 = v.extractLsb' 3 11 := BitVec.extractLsb'_setWidth_of_le (by omega)
  rw [clrstMaskOk, beq_iff_eq, ← hfield, ← and_fld_allOnes_eq_zero, ← setWidth_and_eq_zero]
  rfl

/-- Settles O59: the mask is tested as `clrstMaskOk_iff` says, and `State.clearSticky` clears what it names. -/
theorem clrstClearsSticky : Obligations.ClrstClearsSticky := by
  intro v s
  refine ⟨by simp [encode, formatR_eq], fun hset => ?_, fun hzero => ?_⟩
  · have hbad : AnswersIllegal (.clrst v) := (Bool.not_eq_true _).mp (mt (clrstMaskOk_iff v).mp hset)
    exact ⟨_, exec_of_answersIllegal s hbad, rfl⟩
  · have hflag (b c : Bool) : (b && !c) = if c then false else b := by cases c <;> simp
    exact ⟨_, if_pos ((clrstMaskOk_iff v).mpr hzero), rfl, hflag _ _, hflag _ _, rfl, hflag _ _, rfl, rfl⟩

/-! ### Commands without a side effect -/

/-- The outcome is a next state that differs only in the response and in which free byte is drawn next. -/
def ReadsOnly (s : State) (r : Result) : Prop := ∃ t, r = .next t ∧ t = { s with rsp := t.rsp, freeIdx := t.freeIdx }

section

variable {s : State}

theorem respond_readsOnly (d : Word) : ReadsOnly s (s.respond d) := ⟨_, rfl, rfl⟩

theorem raise_readsOnly (st : Status) : ReadsOnly s (s.raise st) := ⟨_, rfl, rfl⟩

theorem respondByte_readsOnly (q : Packet) (idx : Byte) : ReadsOnly s (s.respondByte q idx) := by
  obtain ⟨t, ht⟩ := respondByte_completes s q idx
  obtain ⟨-, rfl⟩ | ⟨-, rfl⟩ := (respondByte_eq_next s t q idx).mp ht <;> exact ⟨_, ht, rfl⟩

theorem ite_readsOnly {c : Prop} [Decidable c] {r r' : Result} (h : ReadsOnly s r) (h' : ReadsOnly s r') :
    ReadsOnly s (if c then r else r') := by
  split
  · exact h
  · exact h'

end

/-- Settles O18: each of these commands responds, is refused, or reads a byte, on the state it was given. -/
theorem readCommandsChangeNothing : Obligations.ReadCommandsChangeNothing := by
  rintro i s (⟨r, rfl⟩ | ⟨p, idx, rfl⟩ | ⟨p, rfl⟩ | ⟨p, rfl⟩ | ⟨p, rfl⟩ | ⟨p, rfl⟩ | ⟨slot, rfl⟩ | ⟨slot, which, idx, rfl⟩)
  · cases h : s.readReg r with
    | some d => exact ⟨_, exec_rdreg_of_some h, rfl⟩
    | none => exact ⟨_, exec_rdreg_of_none h, rfl⟩
  · exact ite_readsOnly (raise_readsOnly _) (respondByte_readsOnly _ _)
  · exact respond_readsOnly _
  · exact respond_readsOnly _
  · exact respond_readsOnly _
  · exact respond_readsOnly _
  · exact ite_readsOnly (raise_readsOnly _) (ite_readsOnly (respond_readsOnly _) (respond_readsOnly _))
  · refine ite_readsOnly (raise_readsOnly _) ?_
    split
    · exact raise_readsOnly _
    · exact respondByte_readsOnly _ _

end Sys2Proof.Machine

/-! PROOFS. Laws of the framer and the demultiplexer the spec infers from their rules: INV, the two checksum forms, disjoint
matchers and change detection (spec/42_packet_framer.md R142, R157, spec/43_demux.md R191, R192). -/

namespace Sys2Proof.Machine

/-! ### INV and the checksum forms -/

theorem exec_inv (p : PktSel) (s : State) :
    exec (.inv p) s = .next ((s.setPkt p ((s.pkt p).mapData fun b => ~~~b)).withRsp .ok 0#32) := rfl

/-- Settles O41: INV maps the bytes below `len` with the complement (`readByte_mapData`), an involution. -/
theorem invComplementsBytes : Obligations.InvComplementsBytes := by
  intro p s hi
  obtain ⟨hdata, hlen⟩ := hi.pkt_ok p
  refine ⟨formatK_pkt _ p, ⟨_, exec_inv p s, onlyPacket_setPkt s p _ _, ?_⟩,
    execAll_mapData_twice (fun _ => BitVec.not_not) (exec_inv p) s⟩
  rw [pkt_setPkt_withRsp]
  refine ⟨mapData_sameMeta _ _, fun i => ?_⟩
  rw [readByte_mapData _ (hdata ▸ hlen)]
  split
  · exact toNat_complement _
  · rfl

/-- A last byte that equals the checksum does not equal its complement (spec/42_packet_framer.md R142). -/
theorem not_ckDirect_and_ckInv (a : CkAlg) (q : Packet) : ¬(ckDirect a q = true ∧ ckInv a q = true) := by
  simp only [ckDirect, ckInv, Bool.and_eq_true, beq_iff_eq]
  rintro ⟨⟨-, hdirect⟩, -, hinv⟩
  rw [hdirect] at hinv
  have hne : ∀ x : Byte, x ≠ ~~~x := by decide
  exact hne _ hinv

/-- Settles O46: bits 11 and 12 of the word are the two forms of the check, which exclude each other. -/
theorem checksumFormsExclusive : Obligations.ChecksumFormsExclusive := by
  intro p s t h
  obtain rfl := Host.Outcome.next.inj (h.symm.trans (exec_pinfo p s))
  have hdirect := getLsbD_of_bits_eq_flagBit (bits_pinfoWord_ckDirect s.params s.alg (s.pkt p))
  have hinv := getLsbD_of_bits_eq_flagBit (bits_pinfoWord_ckInv s.params s.alg (s.pkt p))
  simp only [State.withRsp_rsp, hdirect, hinv]
  exact not_ckDirect_and_ckInv _ _

/-! ### Disjoint matchers -/

theorem bits_dispWord_id (p : PktSel) (id : Byte) (k : DispKind) : bits (dispWord p id k) 8 8 = id := by
  simp [dispWord, bits_or, bits_fld_self, bits_fld_below, bits_fld_above]

/-- Matchers that claim disjoint type bytes match at most one slot. -/
theorem slotMatches_unique {s : State} {q : Packet} {i j : Nat}
    (hdisj : ∀ j k, j < s.reg.nreg.toNat → k < s.reg.nreg.toNat → j ≠ k →
      ∀ b, ¬((s.slot j).Claims b ∧ (s.slot k).Claims b))
    (hi : SlotMatches s q i) (hj : SlotMatches s q j) : j = i := by
  obtain ⟨hilt, -, hiclaims, -⟩ := hi
  obtain ⟨hjlt, -, hjclaims, -⟩ := hj
  by_contra hne
  exact hdisj j i hjlt hilt hne _ ⟨hjclaims, hiclaims⟩

/-- Settles O50: the one slot that matches (`slotMatches_unique`) is the first, so DISP stages into it
(`exec_disp_of_match`). -/
theorem disjointMatchersAreExact : Obligations.DisjointMatchersAreExact := by
  intro p s i hi hvalid hm hdisj
  have hunique (j : Nat) (hj : SlotMatches s (s.pkt p) j) : j = i := slotMatches_unique hdisj hm hj
  have hfirst : FirstMatch s (s.pkt p) i := ⟨hm, fun j hlt hj => hlt.ne (hunique j hj)⟩
  obtain ⟨-, hlen, h16⟩ := hm.lt_sixteen hi
  refine ⟨hunique, _, exec_disp_of_match hvalid hfirst, dispWord_kind _ _ _, ?_, ?_, fun j hj => ?_⟩
  · have hid := congrArg BitVec.toNat (bits_dispWord_id p (BitVec.ofNat 8 i) .matched)
    exact hid.trans (Nat.mod_eq_of_lt (by omega))
  · exact congrArg Slot.cur (State.setSlot_slot_self s.lockRegistry i _ hlen)
  · exact State.setSlot_slot_ne s.lockRegistry i j _ hj

/-! ### Change detection -/

/-- DISP into the first matching slot, then SINFO: the answer's bit 3 is the change detection of the slot with the packet
staged. -/
theorem disp_sinfo {p : PktSel} {slot : BitVec 4} {s : State} (hi : s.Inv) (hvalid : PacketValid s (s.pkt p))
    (hfirst : FirstMatch s (s.pkt p) slot.toNat) :
    ∃ t, execAll [.disp p, .sinfo slot] s = .next t ∧ t.rsp.status = .ok ∧
      (t.rsp.data.getLsbD 3 = true ↔ SlotChanged { s.slot slot.toNat with cur := s.pkt p, hasCur := true }) := by
  obtain ⟨hlt, hlen, -⟩ := hfirst.1.lt_sixteen hi
  obtain ⟨u, hu⟩ : ∃ u, u = (s.lockRegistry.stage slot.toNat (s.pkt p)).dispatched
    (dispWord p (BitVec.ofNat 8 slot.toNat) .matched) := ⟨_, rfl⟩
  have hdisp : exec (.disp p) s = .next u := hu ▸ exec_disp_of_match hvalid hfirst
  have hslot : u.slot slot.toNat = { s.slot slot.toNat with cur := s.pkt p, hasCur := true } :=
    hu ▸ State.setSlot_slot_self s.lockRegistry _ _ hlen
  have hsinfo : exec (.sinfo slot) u = .next (u.withRsp .ok (sinfoWord (u.slot slot.toNat))) := by
    refine exec_sinfo_of_registered ?_ ?_ <;> rw [hu]
    · exact hlt
    · exact hfirst.1.1
  rw [execAll_cons hdisp, execAll_cons hsinfo]
  refine ⟨_, rfl, rfl, ?_⟩
  rw [State.withRsp_rsp, getLsbD_of_bits_eq_flagBit (bits_sinfoWord_changed _), changed_iff, hslot]

/-- A transfer changes no matcher, so the same slots match. -/
theorem slotMatches_transfer {s : State} (q : Packet) (i j : Nat) (hlt : i < s.reg.slots.length) :
    SlotMatches (s.setSlot i (s.slot i).transfer) q j ↔ SlotMatches s q j := by
  by_cases hj : j = i
  · subst hj
    simp [SlotMatches, Slot.Claims, State.setSlot_slot_self _ _ _ hlt]
  · simp [SlotMatches, State.setSlot_slot_ne _ _ _ _ hj]

/-- Settles O51: the slot that DISP leaves for SINFO (`disp_sinfo`) has no previous packet before the first XFER, and after it the
packet that was current. -/
theorem changeDetection : Obligations.ChangeDetection := by
  intro p slot s hi hvalid hfirst
  obtain ⟨hlt, hlen, -⟩ := hfirst.1.lt_sixteen hi
  refine ⟨fun hnew => ?_, fun hcur => ?_⟩
  · obtain ⟨t, ht, hok, hbit⟩ := disp_sinfo hi hvalid hfirst
    have hprev : (s.slot slot.toNat).hasPrev = false := by
      rw [← Bool.not_eq_true]
      exact mt (hi.prev_needs_cur _ hlt) (hnew ▸ nofun)
    exact ⟨t, ht, hok, hbit.mpr (.inr (.inl hprev))⟩
  · have hxfer := exec_xfer_of_registered hlt hfirst.1.1
    obtain ⟨u, hu⟩ : ∃ u, u = (s.setSlot slot.toNat (s.slot slot.toNat).transfer).withRsp .ok 0#32 := ⟨_, rfl⟩
    rw [← hu] at hxfer
    have hpkt : u.pkt p = s.pkt p := by rw [hu, State.withRsp_pkt, State.setSlot_pkt]
    have hslot : u.slot slot.toNat = { s.slot slot.toNat with prev := (s.slot slot.toNat).cur, hasPrev := true } := by
      rw [hu, State.withRsp_slot, State.setSlot_slot_self _ _ _ hlen, transfer_of_hasCur _ hcur]
    have hmatch (j : Nat) : SlotMatches u (u.pkt p) j ↔ SlotMatches s (s.pkt p) j := by
      rw [hpkt, hu]
      exact slotMatches_transfer _ _ _ hlen
    have hfirst' : FirstMatch u (u.pkt p) slot.toNat := by
      simpa only [FirstMatch, hmatch] using hfirst
    have hvalid' : PacketValid u (u.pkt p) := by
      rw [hpkt, hu]
      exact hvalid
    obtain ⟨t, ht, hok, hbit⟩ := disp_sinfo ((effect_of_exec hxfer).inv hi) hvalid' hfirst'
    refine ⟨t, (execAll_cons hxfer).trans ht, hok, hbit.trans ?_⟩
    simp [SlotChanged, hslot, hpkt]

end Sys2Proof.Machine

/-! PROOFS. The answer of PULSE (spec/41_pulse_codec.md R102, spec/60_exceptions.md R235). -/

namespace Sys2Proof.Machine

section

variable (ph : Phase) (c : Cause) (ev : Event)

theorem bits_pulseWord_event : bits (pulseWord ph c ev) 0 2 = ev.code := by
  simp [pulseWord, bits_or, bits_fld_self, bits_fld_below]

theorem bits_pulseWord_reserved2 : bits (pulseWord ph c ev) 2 2 = 0#2 := by
  simp [pulseWord, bits_or, bits_fld_below, bits_fld_above]

theorem bits_pulseWord_cause : bits (pulseWord ph c ev) 4 4 = c.code := by
  simp [pulseWord, bits_or, bits_fld_self, bits_fld_below, bits_fld_above]

theorem bits_pulseWord_reserved8 : bits (pulseWord ph c ev) 8 5 = 0#5 := by
  simp [pulseWord, bits_or, bits_fld_below, bits_fld_above]

theorem bits_pulseWord_phase : bits (pulseWord ph c ev) 13 3 = ph.code := by
  simp [pulseWord, bits_or, bits_fld_self, bits_fld_above]

theorem bits_pulseWord_reserved16 : bits (pulseWord ph c ev) 16 16 = 0#16 := by
  simp [pulseWord, bits_or, bits_fld_above]

end

theorem answer_data (o : PulseOut) : o.answer.rsp.data = pulseWord o.state.dec.phase o.cause o.ev :=
  (pulseWord_eq _ _ _).symm

/-- Settles O21: the fields of the word are those of `pulseWord`, and each of the three kinds of `pulse_effect` has events of its
own. -/
theorem pulseAnswersOk : Obligations.PulseAnswersOk := by
  intro l d s
  refine ⟨_, exec_pulse l d s, rfl, ?_⟩
  have heffect := pulse_effect s l d
  generalize s.pulse l d = o at heffect ⊢
  rw [answer_data]
  change (bits _ 13 3 = _ ∧ bits _ 16 16 = _ ∧ bits _ 8 5 = _ ∧ bits _ 2 2 = _) ∧
    (bits _ 0 2 = _ → _ ∧ _ ∧ _ ∧ bits _ 4 4 = _ ∧ _) ∧ (bits _ 0 2 = _ → _) ∧ (bits _ 0 2 ≠ _ → bits _ 4 4 = _ ∧ _)
  rw [bits_pulseWord_event, bits_pulseWord_cause]
  refine ⟨⟨bits_pulseWord_phase _ _ _, bits_pulseWord_reserved16 _ _ _, bits_pulseWord_reserved8 _ _ _,
    bits_pulseWord_reserved2 _ _ _⟩, ?_⟩
  cases heffect with
  | @moves _ ev hev =>
    have hcode : ev.code ≠ 3#2 ∧ ev.code ≠ 2#2 := by obtain rfl | rfl := hev <;> decide
    exact ⟨fun h => absurd h hcode.1, fun h => absurd h hcode.2, fun _ => ⟨rfl, rfl, rfl, rfl⟩⟩
  | aborts hc => exact ⟨fun _ => ⟨rfl, rfl, rfl, rfl, hc⟩, nofun, fun h => absurd rfl h⟩
  | completes => exact ⟨nofun, fun _ => ⟨rfl, rfl⟩, fun _ => ⟨rfl, rfl, rfl, rfl⟩⟩

end Sys2Proof.Machine

/-! PROOFS. The record list as one list (spec/41_pulse_codec.md R114): the heading, sixteen records per byte, the trailing low and
the gap. It is the expansion of WIREFRAME (spec/30_encoding.md R93), and its durations add up (spec/70_reset_and_hazards.md R270). -/

namespace Sys2Proof.Machine

/-! ### The records of a byte -/

/-- The two records of a bit. -/
def bitRecords (p : Params) (bit : Bool) : List (Level × Duration) :=
  [(.low, p.bitLow), (.high, if bit then p.oneHigh else p.zeroHigh)]

/-- The sixteen records of a byte, bit 7 first. -/
def byteRecords (p : Params) (x : Byte) : List (Level × Duration) :=
  (List.range 8).flatMap fun m => bitRecords p (x.getLsbD (7 - m))

/-- Record `k` of the bits of a byte sequence, counted from the first bit. -/
def bitRecordAt (p : Params) (b : List Byte) (k : Nat) : Level × Duration :=
  if k % 2 = 0 then (.low, p.bitLow) else (.high, if wireBit b (k / 2) then p.oneHigh else p.zeroHigh)

theorem recAt_add_two (p : Params) (b : List Byte) {k : Nat} (h : k < 16 * b.length) :
    recAt p b.length b (k + 2) = bitRecordAt p b k := by
  have hpar : (k + 2) % 2 = k % 2 := by omega
  rw [recAt, if_neg (by omega), if_neg (by omega), if_pos (by omega), hpar, Nat.add_sub_cancel, bitRecordAt]

theorem wireBit_cons_head (x : Byte) (b : List Byte) {j : Nat} (h : j < 8) : wireBit (x :: b) j = x.getLsbD (7 - j) := by
  rw [wireBit, Nat.div_eq_of_lt h, Nat.mod_eq_of_lt h, readByte_cons_zero]

theorem wireBit_cons_tail (x : Byte) (b : List Byte) (j : Nat) : wireBit (x :: b) (8 + j) = wireBit b j := by
  have hdiv : (8 + j) / 8 = j / 8 + 1 := by omega
  have hmod : (8 + j) % 8 = j % 8 := by omega
  rw [wireBit, hdiv, hmod, readByte_cons_succ, wireBit]

theorem bitRecordAt_cons_tail (p : Params) (x : Byte) (b : List Byte) (k : Nat) :
    bitRecordAt p (x :: b) (16 + k) = bitRecordAt p b k := by
  have hpar : (16 + k) % 2 = k % 2 := by omega
  have hdiv : (16 + k) / 2 = 8 + k / 2 := by omega
  rw [bitRecordAt, hpar, hdiv, wireBit_cons_tail, bitRecordAt]

theorem map_bitRecordAt_head (p : Params) (x : Byte) (b : List Byte) :
    (List.range 16).map (bitRecordAt p (x :: b)) = byteRecords p x := by
  have hbit {j : Nat} (h : j < 8) := wireBit_cons_head x b h
  simp [List.range_succ, bitRecordAt, byteRecords, bitRecords, hbit]

/-- The records between the heading and the trailing low are those of the bytes, one after another. -/
theorem map_bitRecordAt (p : Params) (b : List Byte) :
    (List.range (16 * b.length)).map (bitRecordAt p b) = b.flatMap (byteRecords p) := by
  induction b with
  | nil => rfl
  | cons x b ih =>
    have hcount : 16 * (x :: b).length = 16 + 16 * b.length := by rw [List.length_cons]; omega
    rw [hcount, List.range_add, List.map_append, map_bitRecordAt_head, List.map_map, List.flatMap_cons, ← ih]
    exact congrArg _ (List.map_congr_left fun k _ => bitRecordAt_cons_tail p x b k)

/-- The records before the gap. -/
def frameRecords (p : Params) (b : List Byte) : List (Level × Duration) :=
  [(.low, p.hdrLow), (.high, p.hdrHigh)] ++ b.flatMap (byteRecords p) ++ [(.low, p.trailLow)]

theorem records_eq (p : Params) (b : List Byte) : records p b = frameRecords p b ++ [(.high, p.txGap)] := by
  have hcount : recCount b.length = 2 + 16 * b.length + 2 := by rw [recCount]; omega
  have hmiddle : (List.range (16 * b.length)).map (recAt p b.length b ∘ (2 + ·)) = b.flatMap (byteRecords p) := by
    rw [← map_bitRecordAt]
    refine List.map_congr_left fun k hk => ?_
    rw [Function.comp_apply, Nat.add_comm, recAt_add_two p b (List.mem_range.mp hk)]
  have htrail := recAt_trail p b.length b
  have hgap := recAt_gap p b.length b
  rw [records, hcount, List.range_add, List.range_add]
  simp only [List.map_append, List.map_map, hmiddle]
  simp [List.range_succ, frameRecords, recAt_zero, recAt_one, htrail, Nat.add_right_comm 2 (16 * b.length) 1, hgap]

/-! ### WIREFRAME -/

@[simp] theorem pulses_append (a b : List (Level × Duration)) : pulses (a ++ b) = pulses a ++ pulses b :=
  List.map_append

theorem pulses_flatMap (f : Byte → List (Level × Duration)) (b : List Byte) :
    pulses (b.flatMap f) = b.flatMap fun x => pulses (f x) :=
  List.map_flatMap

theorem asmBit_eq (p : Params) (bit : Bool) : asmBit p bit = pulses (bitRecords p bit) := rfl

theorem asmByte_eq (p : Params) (x : Byte) : asmByte p x = pulses (byteRecords p x) := by
  simp [asmByte, asmBit_eq, byteRecords, List.range_succ]

/-- Settles O29: the record list part by part (`records_eq`). -/
theorem wireframeIsRecordList : Obligations.WireframeIsRecordList := by
  intro p b
  have hbytes : b.flatMap (asmByte p) = pulses (b.flatMap (byteRecords p)) := by
    rw [pulses_flatMap]
    exact congrArg (List.flatMap · b) (funext (asmByte_eq p))
  rw [records_eq, frameRecords, pulses_append, pulses_append, pulses_append, ← hbytes]
  rfl

/-! ### The time on the wire -/

/-- The time a list of records takes, in microseconds. -/
def recordsTime (rs : List (Level × Duration)) : Nat := (rs.map fun r => r.2.toNat).sum

@[simp] theorem recordsTime_append (a b : List (Level × Duration)) :
    recordsTime (a ++ b) = recordsTime a + recordsTime b := by
  rw [recordsTime, List.map_append, List.sum_append]
  rfl

/-- The wire time counts every record but the gap. -/
theorem wireTime_eq (p : Params) (b : List Byte) : wireTime p b = recordsTime (frameRecords p b) := by
  rw [wireTime, records_eq, List.dropLast_concat, recordsTime]

/-- With the default timing a bit takes two or four units of 1000 microseconds. -/
theorem recordsTime_bitRecords (bit : Bool) :
    2000 ≤ recordsTime (bitRecords Params.reference bit) ∧ recordsTime (bitRecords Params.reference bit) ≤ 4000 := by
  cases bit <;> decide

/-- Bounds of each part are bounds of the whole, times the number of parts. -/
theorem recordsTime_flatMap_bounds {α : Type} (f : α → List (Level × Duration)) {lo hi : Nat}
    (hf : ∀ x, lo ≤ recordsTime (f x) ∧ recordsTime (f x) ≤ hi) (xs : List α) :
    lo * xs.length ≤ recordsTime (xs.flatMap f) ∧ recordsTime (xs.flatMap f) ≤ hi * xs.length := by
  induction xs with
  | nil => exact ⟨le_rfl, le_rfl⟩
  | cons x xs ih =>
    obtain ⟨hlo, hhi⟩ := hf x
    obtain ⟨ihlo, ihhi⟩ := ih
    rw [List.flatMap_cons, recordsTime_append, List.length_cons, Nat.mul_succ, Nat.mul_succ]
    omega

/-- Settles O30: eight bits to a byte, 2000 to 4000 microseconds each, beside the heading and the trailing low. -/
theorem wireTimeBounds : Obligations.WireTimeBounds := by
  intro b
  have hbyte (x : Byte) := recordsTime_flatMap_bounds _ (fun m => recordsTime_bitRecords (x.getLsbD (7 - m))) (List.range 8)
  obtain ⟨hlo, hhi⟩ := recordsTime_flatMap_bounds (byteRecords Params.reference) hbyte b
  have hheading : recordsTime [(.low, Params.reference.hdrLow), (.high, Params.reference.hdrHigh)] = 14000 := rfl
  have htrail : recordsTime [(.low, Params.reference.trailLow)] = 1000 := rfl
  rw [List.length_range] at hlo hhi
  rw [wireTime_eq, frameRecords, recordsTime_append, recordsTime_append, hheading, htrail]
  omega

end Sys2Proof.Machine

/-! PROOFS. Sending a frame (spec/41_pulse_codec.md R114, R115, R117): one TXPOP per record answers the record list. -/

namespace Sys2Proof.Machine

/-- The format P words of the records `k` to `k + n - 1` of the frame in TXBUF. -/
def State.recordWords (s : State) (k n : Nat) : List Word :=
  (List.range' k n).map fun j =>
    formatP (recAt s.params s.enc.txn.toNat s.enc.txbuf j).1 (recAt s.params s.enc.txn.toNat s.enc.txbuf j).2

/-- Nothing changes but the encoder, which ends idle, and the response. -/
def EndsIdle (s u : State) : Prop :=
  u = { s with enc := u.enc, rsp := u.rsp } ∧ u.enc.active = false ∧ u.enc.cursor = 0#16 ∧ u.enc.total = 0#16

/-- The state TXPOP leaves when it answered a record that is not the last. -/
def State.popped (s : State) : State :=
  State.withRsp { s with enc := { s.enc with cursor := s.enc.cursor + 1#16 } } .ok s.nextRecord

theorem pops_succ {s t : State} (n : Nat) (h : exec .txpop s = .next t) :
    pops (n + 1) s = (pops n t).map fun r => (t.rsp.data :: r.1, r.2) := by
  simp only [pops, h]

/-- As many TXPOP as there are records left answer them in order and leave the encoder idle. -/
theorem pops_remaining (n : Nat) {s : State} (hi : s.Inv) (hact : s.enc.active = true)
    (hleft : s.enc.cursor.toNat + (n + 1) = s.enc.total.toNat) :
    ∃ u, pops (n + 1) s = some (s.recordWords s.enc.cursor.toNat (n + 1), u) ∧ EndsIdle s u := by
  have hnext := toNat_cursor_add_one hi hact
  induction n generalizing s with
  | zero =>
    have hlast : s.enc.cursor + 1#16 = s.enc.total := BitVec.eq_of_toNat_eq (hnext.trans hleft)
    rw [pops_succ 0 (exec_txpop_of_last hact hlast)]
    exact ⟨_, rfl, rfl, rfl, rfl, rfl⟩
  | succ n ih =>
    have hmore : s.enc.cursor + 1#16 ≠ s.enc.total := by
      rw [ne_eq, BitVec.toNat_eq, hnext]
      omega
    have hpop : exec .txpop s = .next s.popped := exec_txpop_of_more hact hmore
    have hinv : s.popped.Inv := (effect_of_exec hpop).inv hi
    have hcursor : s.popped.enc.cursor.toNat = s.enc.cursor.toNat + 1 := hnext
    have htotal : s.popped.enc.total.toNat = s.enc.total.toNat := rfl
    obtain ⟨u, hu, heq, hidle⟩ := ih hinv hact (by omega) (toNat_cursor_add_one hinv hact)
    rw [pops_succ (n + 1) hpop, hu, hcursor]
    exact ⟨u, rfl, heq, hidle⟩

/-- The whole record list of the snapshot in TXBUF. -/
theorem recordWords_all (s : State) {b : List Byte} (hlen : s.enc.txn.toNat = b.length)
    (hbytes : ∀ i < b.length, readByte s.enc.txbuf i = readByte b i) :
    s.recordWords 0 (recCount b.length) = (records s.params b).map fun r => formatP r.1 r.2 := by
  rw [State.recordWords, ← List.range_eq_range', records, List.map_map, hlen]
  refine List.map_congr_left fun j _ => ?_
  rw [Function.comp_apply, recAt_congr _ _ _ b j hbytes]

/-- Settles O34: ENC puts the packet's bytes into TXBUF, and TXPOP answers the records of TXBUF to the last
(`pops_remaining`). -/
theorem popsAnswerWholeRecordList : Obligations.PopsAnswerWholeRecordList := by
  intro p s hi hidle
  obtain ⟨hdata, hlen⟩ := hi.pkt_ok p
  obtain ⟨-, -, henc⟩ := encSnapshotsPacket p s hi
  obtain ⟨t, hnext, heq, hact, hcursor, htxn, htotal, -, hread⟩ := henc hidle
  have hparams : t.params = s.params := by rw [heq]
  have hcount : (s.pkt p).len.toNat = ((s.pkt p).data.take (s.pkt p).len.toNat).length :=
    (List.length_take_of_le (hdata ▸ hlen)).symm
  have hleft : t.enc.cursor.toNat + (16 * (s.pkt p).len.toNat + 3 + 1) = t.enc.total.toNat := by
    rw [hcursor, htotal]
    exact Nat.zero_add _
  obtain ⟨u, hpops, hu, hend⟩ := pops_remaining _ ((effect_of_exec hnext).inv hi) hact hleft
  have hwords := recordWords_all t (b := (s.pkt p).data.take (s.pkt p).len.toNat) (htxn ▸ hcount) fun i h => by
    rw [← hcount] at h
    rw [hread i h, readByte_take _ _ _ h]
  rw [hparams, recCount, ← hcount] at hwords
  rw [hcursor] at hpops
  refine ⟨t, u, hnext, hpops.trans (congrArg (fun ws => some (ws, u)) hwords), ?_, hend⟩
  rw [hu, heq]

end Sys2Proof.Machine

/-! PROOFS. The round trip of the codec (spec/41_pulse_codec.md R119): the decoder run on the records of a byte sequence, bit by
bit and byte by byte. -/

namespace Sys2Proof.Machine

/-! ### Nominal durations and the windows -/

section

variable {s : State}

theorem tol_le_hundred (hi : s.Inv) : s.cfg.toNat % 128 ≤ 100 := by
  have hrange := mt cfgOutOfRange_iff.mpr (Bool.not_eq_true _ ▸ hi.cfg_legal.2)
  omega

/-- A nominal duration is in its own window, at every tolerance. -/
theorem inWindow_self (n : Duration) : InWindow s n n := by
  refine ⟨?_, ?_⟩
  · rw [Nat.mul_comm 100]
    exact Nat.mul_le_mul_left _ (Nat.sub_le _ _)
  · rw [Nat.mul_comm 100]
    exact Nat.mul_le_mul_left _ (Nat.le_add_right _ _)

/-- A duration of more than twice the nominal one is in no window of it, since the tolerance is at most 100. -/
theorem not_inWindow_of_two_mul_lt (hi : s.Inv) {d n : Duration} (h : 2 * n.toNat < d.toNat) : ¬InWindow s d n := by
  rintro ⟨-, hle⟩
  have htol : n.toNat * (100 + s.cfg.toNat % 128) ≤ n.toNat * 200 :=
    Nat.mul_le_mul_left _ (by have := tol_le_hundred hi; omega)
  omega

/-! ### The records of a frame, one by one -/

theorem exec_headingLow (hi : s.Inv) (hph : s.dec.phase = .idle) :
    exec (.pulse .low s.params.hdrLow) s =
      .next { s with dec := { s.dec with phase := .headHigh }, rsp := pulseReply .headHigh .none 1 } := by
  obtain ⟨-, -, -, hthresh, -⟩ := hi.params_legal
  rw [exec_pulse, pulse_idle hthresh hph, pulseIdle_of_starts ⟨rfl, inWindow_self _⟩, advance_answer]

theorem exec_headingHigh (hi : s.Inv) (hph : s.dec.phase = .headHigh) :
    exec (.pulse .high s.params.hdrHigh) s =
      .next
        { s with
          dec := { s.dec with phase := .bitLow, tbits := 0#16, sr := 0#8 }
          rsp := pulseReply .bitLow .none 1 } := by
  obtain ⟨-, -, -, -, hthresh, -⟩ := hi.params_legal
  rw [exec_pulse, pulse_headHigh hthresh hph, pulseHeadHigh_of_inWindow (inWindow_self _)]
  rfl

theorem exec_bitLow (hi : s.Inv) (hph : s.dec.phase = .bitLow) :
    exec (.pulse .low s.params.bitLow) s =
      .next { s with dec := { s.dec with phase := .bitHigh }, rsp := pulseReply .bitHigh .none 1 } := by
  obtain ⟨-, -, -, -, -, hthresh, -⟩ := hi.params_legal
  rw [exec_pulse, pulse_bitLow hthresh hph, pulseBitLow_of_inWindow (inWindow_self _), advance_answer]

/-- The nominal high pulse of a bit is taken for that bit: the window of a 1 is above the one of a 0. -/
theorem exec_bitHigh (hi : s.Inv) (hph : s.dec.phase = .bitHigh) (bit : Bool) :
    exec (.pulse .high (if bit then s.params.oneHigh else s.params.zeroHigh)) s = .next (s.takeBit bit).answer := by
  obtain ⟨-, -, -, -, -, -, hthresh, hone, -⟩ := hi.params_legal
  have hzero : s.params.thresh.toNat ≤ s.params.zeroHigh.toNat := hthresh
  rw [exec_pulse]
  cases bit
  · rw [if_neg nofun, pulse_bitHigh hzero hph, pulseBitHigh_of_zero (inWindow_self _)]
  · rw [if_pos rfl, pulse_bitHigh (by omega) hph,
      pulseBitHigh_of_one (not_inWindow_of_two_mul_lt hi hone) (inWindow_self _)]

/-- The gap is above the window of a 1, so it ends the frame. -/
theorem exec_gap (hi : s.Inv) (hph : s.dec.phase = .bitHigh) :
    exec (.pulse .high s.params.txGap) s = .next s.complete.answer := by
  obtain ⟨-, -, -, -, -, -, hthresh, hone, hend, -, -, hgap, -⟩ := hi.params_legal
  have hzero : s.params.thresh.toNat ≤ s.params.zeroHigh.toNat := hthresh
  have hlt : s.params.endGap.toNat < s.params.txGap.toNat := hgap
  rw [exec_pulse, pulse_bitHigh (by omega) hph,
    pulseBitHigh_of_no_bit (not_inWindow_of_two_mul_lt hi (by omega)) (not_inWindow_of_two_mul_lt hi (by omega)),
    if_pos hgap]

end

/-! ### Bits and bytes received -/

/-- The decoder, started from `s`, has received the bytes `b` and the first `m` bits of `x`; nothing else changed. -/
structure Receiving (s : State) (b : List Byte) (x : Byte) (m : Nat) (t : State) : Prop where
  inv : t.Inv
  frame : t = { s with dec := t.dec, rsp := t.rsp }
  phase : t.dec.phase = .bitLow
  tbits : t.dec.tbits.toNat = 8 * b.length + m
  sr : t.dec.sr.toNat % 2 ^ m = x.toNat / 2 ^ (8 - m)
  bytes : ∀ i < b.length, readByte t.dec.abuf i = readByte b i
  last : m = 8 → readByte t.dec.abuf b.length = x

section

variable {s t : State} {b : List Byte} {x : Byte} {m : Nat}

theorem Receiving.params_eq (h : Receiving s b x m t) : t.params = s.params := by rw [h.frame]

/-- The shift register after one more bit of the byte. -/
theorem sr_next {sr sr' : Nat} (hm : m < 8) (h : sr % 2 ^ m = x.toNat / 2 ^ (8 - m))
    (hnext : sr' = (sr * 2 + (x.getLsbD (7 - m)).toNat) % 256) : sr' % 2 ^ (m + 1) = x.toNat / 2 ^ (8 - (m + 1)) := by
  have hbit : (x.getLsbD (7 - m)).toNat = x.toNat / 2 ^ (7 - m) % 2 := by
    rw [← BitVec.testBit_toNat, Nat.toNat_testBit]
  rw [hbit] at hnext
  interval_cases m <;> omega

/-- The two records of the next bit. -/
theorem Receiving.take_bit (h : Receiving s b x m t) (hm : m < 8) (hroom : b.length < s.params.cap) :
    ∃ u, execAll (pulses (bitRecords s.params (x.getLsbD (7 - m)))) t = .next u ∧ Receiving s b x (m + 1) u := by
  have hlow := exec_bitLow h.inv h.phase
  obtain ⟨v, hv⟩ : ∃ v, v = { t with dec := { t.dec with phase := .bitHigh }, rsp := pulseReply .bitHigh .none 1 } :=
    ⟨_, rfl⟩
  rw [← hv] at hlow
  have hvinv := (effect_of_exec hlow).inv h.inv
  have hvparams : v.params = s.params := by rw [hv, ← h.params_eq]
  have hhigh := exec_bitHigh hvinv (by rw [hv]) (x.getLsbD (7 - m))
  have hcap : s.params.cap ≤ 255 := hvparams ▸ hvinv.params_legal.1.2
  have hvbits : v.dec.tbits.toNat = 8 * b.length + m := by rw [hv, ← h.tbits]
  have hnotmax : v.dec.tbits ≠ 0xFFFF#16 := by
    rw [ne_eq, BitVec.toNat_eq, hvbits]
    simp only [BitVec.toNat_ofNat]
    omega
  obtain ⟨-, htakes⟩ := takeBit_answer v (x.getLsbD (7 - m)) hvinv.abuf_length
  obtain ⟨hframe, hph, hbits, hsr, -, hread⟩ := htakes hnotmax
  rw [hvparams] at hhigh hread
  rw [bitRecords, pulses, List.map_cons, List.map_cons, ← h.params_eq, execAll_cons hlow, h.params_eq, execAll_cons hhigh]
  have hsr' : (v.takeBit (x.getLsbD (7 - m))).answer.dec.sr.toNat % 2 ^ (m + 1) = x.toNat / 2 ^ (8 - (m + 1)) :=
    sr_next hm (by rw [hv]; exact h.sr) hsr
  refine ⟨_, rfl, (effect_of_exec hhigh).inv hvinv, ?_, hph, by omega, hsr', fun i hi => ?_, fun hlast => ?_⟩
  · rw [hframe, hv, h.frame]
  · rw [hread i (hi.trans hroom), if_neg (by omega), hv]
    exact h.bytes i hi
  · rw [hread _ hroom, if_pos (by omega)]
    rw [hlast] at hsr'
    exact BitVec.eq_of_toNat_eq (by omega)

/-- The records of the first `m` bits of a byte. -/
theorem Receiving.take_bits (h : Receiving s b x 0 t) (hroom : b.length < s.params.cap) (hm : m ≤ 8) :
    ∃ u, execAll (pulses ((List.range m).flatMap fun j => bitRecords s.params (x.getLsbD (7 - j)))) t = .next u ∧
      Receiving s b x m u := by
  induction m with
  | zero => exact ⟨t, rfl, h⟩
  | succ m ih =>
    obtain ⟨u, hu, hbits⟩ := ih (Nat.le_of_succ_le hm)
    obtain ⟨v, hv, hbits'⟩ := hbits.take_bit hm hroom
    refine ⟨v, ?_, hbits'⟩
    rw [List.range_succ, List.flatMap_append, pulses_append, execAll_append hu, List.flatMap_singleton, hv]

theorem readByte_append_left (b c : List Byte) {i : Nat} (h : i < b.length) : readByte (b ++ c) i = readByte b i := by
  rw [readByte, readByte, List.getD_append _ _ _ _ h]

theorem readByte_append_singleton (b : List Byte) (x : Byte) : readByte (b ++ [x]) b.length = x := by
  simp [readByte]

/-- Eight bits received are a byte received, and no bit of the next one, whatever that is. -/
theorem Receiving.whole_byte (h : Receiving s b x 8 t) (y : Byte) : Receiving s (b ++ [x]) y 0 t where
  inv := h.inv
  frame := h.frame
  phase := h.phase
  tbits := by
    rw [h.tbits, List.length_append, List.length_singleton]
    omega
  sr := by
    have hy := y.isLt
    omega
  bytes := fun i hi => by
    rw [List.length_append, List.length_singleton, Nat.lt_succ_iff_lt_or_eq] at hi
    obtain hi | rfl := hi
    · rw [h.bytes i hi, readByte_append_left _ _ hi]
    · rw [h.last rfl, readByte_append_singleton]
  last := nofun

end

/-- The records of a byte sequence, which has room after the bytes already received. -/
theorem receiving_bytes {s : State} (c : List Byte) {b : List Byte} {t : State} (h : ∀ x, Receiving s b x 0 t)
    (hroom : b.length + c.length ≤ s.params.cap) :
    ∃ u, execAll (pulses (c.flatMap (byteRecords s.params))) t = .next u ∧ ∀ x, Receiving s (b ++ c) x 0 u := by
  induction c generalizing b t with
  | nil => exact ⟨t, rfl, by rwa [List.append_nil]⟩
  | cons x c ih =>
    rw [List.length_cons] at hroom
    obtain ⟨u, hu, hbyte⟩ := (h x).take_bits (by omega) le_rfl
    obtain ⟨v, hv, hbytes⟩ := ih hbyte.whole_byte (by rw [List.length_append, List.length_singleton]; omega)
    rw [List.append_assoc] at hbytes
    refine ⟨v, ?_, hbytes⟩
    rw [List.flatMap_cons, pulses_append, byteRecords, execAll_append hu, hv]

/-! ### The frame -/

/-- The heading starts a frame with no bit. -/
theorem receiving_heading {s : State} (hi : s.Inv) (hph : s.dec.phase = .idle) :
    ∃ t, execAll (pulses [(.low, s.params.hdrLow), (.high, s.params.hdrHigh)]) s = .next t ∧
      ∀ x, Receiving s [] x 0 t := by
  have hlow := exec_headingLow hi hph
  have hinv := (effect_of_exec hlow).inv hi
  have hhigh := exec_headingHigh hinv rfl
  rw [pulses, List.map_cons, List.map_cons, execAll_cons hlow, execAll_cons hhigh]
  refine ⟨_, rfl, fun x => ⟨(effect_of_exec hhigh).inv hinv, rfl, rfl, rfl, ?_, nofun, nofun⟩⟩
  have hx := x.isLt
  simp only [BitVec.toNat_ofNat]
  omega

/-- The trailing low and the gap deliver the bytes received. -/
theorem Receiving.deliver {s t : State} {b : List Byte} {x : Byte} (h : Receiving s b x 0 t) (hpos : 1 ≤ b.length)
    (hroom : b.length ≤ s.params.cap) :
    ∃ u, execAll (pulses [(.low, s.params.trailLow), (.high, s.params.txGap)]) t = .next u ∧
      u.dec.phase = .idle ∧ u.rxp.len.toNat = b.length ∧ u.rxp.data.take b.length = b ∧ u.rxp.ovf = false ∧
      u.flags.rxReady = true ∧ u.rsp = pulseReply .idle .none 2 ∧
      u.terrCnt = s.terrCnt ∧ u.flags.terr = s.flags.terr ∧ u.flags.lastTerr = s.flags.lastTerr := by
  have hparams := h.params_eq
  obtain ⟨-, -, -, -, -, -, -, -, -, -, htrail, -⟩ := h.inv.params_legal
  have hlow := exec_bitLow h.inv h.phase
  obtain ⟨v, hv⟩ : ∃ v, v = { t with dec := { t.dec with phase := .bitHigh }, rsp := pulseReply .bitHigh .none 1 } :=
    ⟨_, rfl⟩
  rw [← hv, ← htrail, hparams] at hlow
  have hvparams : v.params = s.params := by rw [hv, ← hparams]
  have hvinv := (effect_of_exec hlow).inv h.inv
  have hgap := exec_gap hvinv (by rw [hv])
  rw [hvparams] at hgap
  have hbits : v.dec.tbits.toNat = 8 * b.length := by rw [hv, ← Nat.add_zero (8 * b.length), ← h.tbits]
  have hbytes : v.dec.tbits.toNat / 8 = b.length := by omega
  obtain ⟨-, -, hends⟩ := complete_answer v hvinv
  obtain ⟨hframe, -, hlen, -, -, hovf, hdata, hread⟩ := hends (by omega) (by omega)
  rw [hbytes, hvparams] at hlen hovf hread
  rw [pulses, List.map_cons, List.map_cons, execAll_cons hlow, execAll_cons hgap]
  have hdata' : v.complete.answer.rxp.data.length = s.params.cap := by rw [hdata, hvinv.rxp_ok.1, hvparams]
  refine ⟨_, rfl, by rw [hframe], hlen.trans (Nat.min_eq_left hroom), ?_, ?_, by rw [hframe], by rw [hframe], ?_, ?_, ?_⟩
  · have htake : (v.complete.answer.rxp.data.take b.length).length = b.length :=
      List.length_take_of_le (hdata' ▸ hroom)
    refine ext_readByte _ _ htake fun i hi => ?_
    rw [htake] at hi
    rw [readByte_take _ _ _ hi, hread i (hi.trans_le hroom), if_pos hi, hv]
    exact h.bytes i hi
  · rw [← Bool.not_eq_true, hovf]
    omega
  all_goals rw [hframe, hv, h.frame]

/-- Settles O27: the heading, the bytes one after another (`receiving_bytes`), and the end of the frame
(`Receiving.deliver`). -/
theorem codecRoundTrip : Obligations.CodecRoundTrip := by
  intro s b hi hph hpos hroom
  obtain ⟨t, ht, hstart⟩ := receiving_heading hi hph
  obtain ⟨u, hu, hbytes⟩ := receiving_bytes b hstart (by rwa [List.length_nil, Nat.zero_add])
  obtain ⟨v, hv, hend⟩ := (hbytes 0#8).deliver hpos hroom
  refine ⟨v, ?_, hend⟩
  have hlist : pulses (records s.params b) =
      pulses [(.low, s.params.hdrLow), (.high, s.params.hdrHigh)] ++ (pulses (b.flatMap (byteRecords s.params)) ++
        pulses [(.low, s.params.trailLow), (.high, s.params.txGap)]) := by
    rw [records_eq, frameRecords, ← pulses_append, ← pulses_append, List.append_assoc, List.append_assoc]
    rfl
  rw [hlist, execAll_append ht, execAll_append hu, hv]

end Sys2Proof.Machine

/-! PROOFS. Undefined bytes (spec/10_state.md R41): from two states that agree in everything else, each operation answers alike and
leaves states that agree again. -/

namespace Sys2Proof.Machine

/-! ### Packets that agree -/

section

variable {q r : Packet}

theorem PacketAgrees.len (h : PacketAgrees q r) : r.len = q.len := h.2.1.symm

theorem PacketAgrees.read (h : PacketAgrees q r) {i : Nat} (hi : i < q.len.toNat) :
    readByte r.data i = readByte q.data i := by
  obtain ⟨-, -, -, -, -, hbytes⟩ := h
  exact (hbytes i hi).symm

/-- The same number of bytes below `len` are the same bytes. -/
theorem PacketAgrees.take (h : PacketAgrees q r) {n : Nat} (hn : n ≤ q.len.toNat) : r.data.take n = q.data.take n := by
  obtain ⟨hdata, -⟩ := id h
  refine ext_readByte _ _ (by rw [List.length_take, List.length_take, hdata]) fun i hi => ?_
  have hlt : i < n := (List.length_take_le _ _).trans_lt' hi
  rw [readByte_take _ _ _ hlt, readByte_take _ _ _ hlt, h.read (hlt.trans_le hn)]

theorem PacketAgrees.ck_eq (h : PacketAgrees q r) (a : CkAlg) : ck a r = ck a q := by
  rw [ck, ck, h.len, h.take (Nat.sub_le _ _)]

/-- The last byte is below `len`, so a test that asks for a byte at all sees the same one. -/
theorem PacketAgrees.lastByte_test (h : PacketAgrees q r) (x : Byte) :
    (decide (1 ≤ r.len.toNat) && r.lastByte == x) = (decide (1 ≤ q.len.toNat) && q.lastByte == x) := by
  rw [h.len]
  by_cases hpos : 1 ≤ q.len.toNat
  · rw [Packet.lastByte, Packet.lastByte, h.len, h.read (by omega)]
  · rw [decide_eq_false hpos, Bool.false_and, Bool.false_and]

theorem PacketAgrees.ckDirect_eq (h : PacketAgrees q r) (a : CkAlg) : ckDirect a r = ckDirect a q := by
  rw [ckDirect, h.ck_eq, h.lastByte_test, ckDirect]

theorem PacketAgrees.ckInv_eq (h : PacketAgrees q r) (a : CkAlg) : ckInv a r = ckInv a q := by
  rw [ckInv, h.ck_eq, h.lastByte_test, ckInv]

theorem PacketAgrees.isLong_eq (h : PacketAgrees q r) (p : Params) : isLong p r = isLong p q := by
  rw [isLong, h.len, isLong]

theorem PacketAgrees.isShort_eq (h : PacketAgrees q r) (p : Params) : isShort p r = isShort p q := by
  rw [isShort, h.len, isShort]

theorem PacketAgrees.sizeValid_eq (h : PacketAgrees q r) (p : Params) : sizeValid p r = sizeValid p q := by
  rw [sizeValid, h.len, h.isLong_eq, h.isShort_eq, sizeValid]

theorem PacketAgrees.valid_eq (h : PacketAgrees q r) (p : Params) (a : CkAlg) : valid p a r = valid p a q := by
  rw [valid, h.sizeValid_eq, h.ckDirect_eq, h.ckInv_eq, valid]

theorem PacketAgrees.typeByte_eq (h : PacketAgrees q r) : r.typeByte = q.typeByte := by
  rw [Packet.typeByte, Packet.typeByte, h.len]
  split
  · exact h.read (by omega)
  · rfl

theorem PacketAgrees.pinfoWord_eq (h : PacketAgrees q r) (p : Params) (a : CkAlg) : pinfoWord p a r = pinfoWord p a q := by
  obtain ⟨-, hlen, -, hsrc, hovf, -⟩ := id h
  simp only [pinfoWord, h.typeByte_eq, ← hsrc, ← hovf, h.valid_eq, h.ckInv_eq, h.ckDirect_eq, h.sizeValid_eq, h.isShort_eq,
    h.isLong_eq, ← hlen]

/-! Operations on packets that agree. -/

theorem PacketAgrees.wrb (h : PacketAgrees q r) {i : Nat} (hi : i < q.data.length) (v : Byte) :
    PacketAgrees { q with data := writeByte q.data i v } { r with data := writeByte r.data i v } := by
  obtain ⟨hdata, hlen, htime, hsrc, hovf, hbytes⟩ := h
  refine ⟨by simpa using hdata, hlen, htime, hsrc, hovf, fun j hj => ?_⟩
  rw [readByte_writeByte _ _ _ _ hi, readByte_writeByte _ _ _ _ (hdata ▸ hi), hbytes j hj]

theorem PacketAgrees.mapData (h : PacketAgrees q r) (f : Byte → Byte) (hfit : q.len.toNat ≤ q.data.length) :
    PacketAgrees (q.mapData f) (r.mapData f) := by
  obtain ⟨hdata, hlen, htime, hsrc, hovf, hbytes⟩ := h
  refine ⟨by simpa [Packet.mapData] using hdata, hlen, htime, hsrc, hovf, fun j hj => ?_⟩
  have hj' : j < q.len.toNat := hj
  rw [readByte_mapData f hfit, readByte_mapData f (hlen ▸ hdata ▸ hfit), ← hlen, hbytes j hj']

theorem PacketAgrees.push (h : PacketAgrees q r) (cap : Nat) (hcap : cap ≤ q.data.length) (v : Byte) :
    PacketAgrees (q.push cap v) (r.push cap v) := by
  obtain ⟨hdata, hlen, htime, hsrc, hovf, hbytes⟩ := id h
  by_cases hroom : q.len.toNat < cap
  · rw [push_of_lt _ _ _ hroom, push_of_lt _ _ _ (hlen ▸ hroom), ← hlen]
    refine ⟨by simpa using hdata, rfl, htime, hsrc, hovf, fun j hj => ?_⟩
    have hj' : j < (q.len + 1#8).toNat := hj
    rw [readByte_writeByte _ _ _ _ (hroom.trans_le hcap), readByte_writeByte _ _ _ _ (hdata ▸ hroom.trans_le hcap)]
    split
    · rfl
    · refine hbytes j ?_
      rw [BitVec.toNat_add] at hj'
      simp only [BitVec.toNat_ofNat] at hj'
      omega
  · rw [push_of_ge _ _ _ (Nat.not_lt.mp hroom), push_of_ge _ _ _ (hlen ▸ Nat.not_lt.mp hroom)]
    exact ⟨hdata, hlen, htime, hsrc, rfl, hbytes⟩

theorem PacketAgrees.seal (h : PacketAgrees q r) (a : CkAlg) (inverted : Bool) (hfit : q.len.toNat ≤ q.data.length) :
    PacketAgrees (q.seal a inverted) (r.seal a inverted) := by
  have hlen : r.len.toNat = q.len.toNat := congrArg BitVec.toNat h.len
  by_cases hpos : 1 ≤ q.len.toNat
  · rw [seal_of_nonempty a inverted hpos, seal_of_nonempty a inverted (hlen ▸ hpos), h.ck_eq, hlen]
    exact h.wrb (i := q.len.toNat - 1) (by omega) _
  · rw [seal_of_empty a inverted (by omega), seal_of_empty a inverted (by omega)]
    exact h

end

/-! ### Slots that agree -/

/-- Two slots agree in everything but the bytes at and above the `len` of their packets. -/
def SlotAgrees (sl sl' : Slot) : Prop :=
  sl' = { sl with cur := sl'.cur, prev := sl'.prev } ∧ PacketAgrees sl.cur sl'.cur ∧ PacketAgrees sl.prev sl'.prev

section

variable {sl sl' : Slot}

/-- Bytes are compared only below a common `len`, where both are defined. -/
theorem SlotAgrees.changed_eq (h : SlotAgrees sl sl') : sl'.changed = sl.changed := by
  obtain ⟨heq, hcur, hprev⟩ := h
  have hhasCur : sl'.hasCur = sl.hasCur := by rw [heq]
  have hhasPrev : sl'.hasPrev = sl.hasPrev := by rw [heq]
  have hsame : SameBytes sl'.cur sl'.prev ↔ SameBytes sl.cur sl.prev := by
    rw [SameBytes, SameBytes, hcur.len, hprev.len]
    refine and_congr_right fun hlen => forall₂_congr fun i hi => ?_
    rw [hcur.read hi, hprev.read (hlen ▸ hi)]
  rw [Bool.eq_iff_iff, changed_iff, changed_iff, SlotChanged, SlotChanged, hhasCur, hhasPrev, hsame]

theorem SlotAgrees.sinfoWord_eq (h : SlotAgrees sl sl') : sinfoWord sl' = sinfoWord sl := by
  have hchanged := h.changed_eq
  obtain ⟨heq, hcur, -⟩ := h
  have hlen := hcur.len
  rw [sinfoWord, hchanged, hlen, heq]
  rfl

theorem SlotAgrees.transfer (h : SlotAgrees sl sl') : SlotAgrees sl.transfer sl'.transfer := by
  obtain ⟨heq, hcur, hprev⟩ := h
  have hhas : sl'.hasCur = sl.hasCur := by rw [heq]
  cases hsl : sl.hasCur
  · rw [transfer_of_not_hasCur _ hsl, transfer_of_not_hasCur _ (hhas.trans hsl)]
    exact ⟨heq, hcur, hprev⟩
  · rw [transfer_of_hasCur _ hsl, transfer_of_hasCur _ (hhas.trans hsl)]
    exact ⟨by rw [heq], hcur, hcur⟩

/-- A slot has the packet `which` names, in agreement, or lacks it, in both slots alike. -/
theorem SlotAgrees.packet? (h : SlotAgrees sl sl') (which : Which) :
    (sl.packet? which = none ∧ sl'.packet? which = none) ∨
      ∃ q q', sl.packet? which = some q ∧ sl'.packet? which = some q' ∧ PacketAgrees q q' := by
  obtain ⟨heq, hcur, hprev⟩ := h
  have hhasCur : sl'.hasCur = sl.hasCur := by rw [heq]
  have hhasPrev : sl'.hasPrev = sl.hasPrev := by rw [heq]
  cases which with
  | cur =>
    simp only [Slot.packet?, hhasCur]
    cases sl.hasCur
    · exact .inl ⟨rfl, rfl⟩
    · exact .inr ⟨_, _, rfl, rfl, hcur⟩
  | prev =>
    simp only [Slot.packet?, hhasPrev]
    cases sl.hasPrev
    · exact .inl ⟨rfl, rfl⟩
    · exact .inr ⟨_, _, rfl, rfl, hprev⟩

end

/-! ### States that agree -/

section

variable {s s' : State}

theorem AgreeOnDefined.pkt (h : AgreeOnDefined s s') (p : PktSel) : PacketAgrees (s.pkt p) (s'.pkt p) := by
  obtain ⟨-, hrxp, htxp, -⟩ := h
  cases p
  · exact hrxp
  · exact htxp

theorem AgreeOnDefined.slot (h : AgreeOnDefined s s') (i : Nat) : SlotAgrees (s.slot i) (s'.slot i) := by
  obtain ⟨-, -, -, -, -, hslots⟩ := h
  exact hslots i

theorem AgreeOnDefined.params_eq (h : AgreeOnDefined s s') : s'.params = s.params := by rw [h.1]
theorem AgreeOnDefined.cfg_eq (h : AgreeOnDefined s s') : s'.cfg = s.cfg := by rw [h.1]
theorem AgreeOnDefined.nreg_eq (h : AgreeOnDefined s s') : s'.reg.nreg = s.reg.nreg := by rw [h.1]
theorem AgreeOnDefined.lock_eq (h : AgreeOnDefined s s') : s'.reg.lock = s.reg.lock := by rw [h.1]
theorem AgreeOnDefined.phase_eq (h : AgreeOnDefined s s') : s'.dec.phase = s.dec.phase := by rw [h.1]
theorem AgreeOnDefined.tbits_eq (h : AgreeOnDefined s s') : s'.dec.tbits = s.dec.tbits := by rw [h.1]
theorem AgreeOnDefined.sr_eq (h : AgreeOnDefined s s') : s'.dec.sr = s.dec.sr := by rw [h.1]
theorem AgreeOnDefined.active_eq (h : AgreeOnDefined s s') : s'.enc.active = s.enc.active := by rw [h.1]
theorem AgreeOnDefined.cursor_eq (h : AgreeOnDefined s s') : s'.enc.cursor = s.enc.cursor := by rw [h.1]
theorem AgreeOnDefined.total_eq (h : AgreeOnDefined s s') : s'.enc.total = s.enc.total := by rw [h.1]
theorem AgreeOnDefined.txn_eq (h : AgreeOnDefined s s') : s'.enc.txn = s.enc.txn := by rw [h.1]
theorem AgreeOnDefined.nowMs_eq (h : AgreeOnDefined s s') : s'.nowMs = s.nowMs := by rw [h.1]
theorem AgreeOnDefined.rxSrc_eq (h : AgreeOnDefined s s') : s'.rxSrc = s.rxSrc := by rw [h.1]
theorem AgreeOnDefined.freeByte_eq (h : AgreeOnDefined s s') : s'.freeByte = s.freeByte := by rw [h.1]; rfl
theorem AgreeOnDefined.alg_eq (h : AgreeOnDefined s s') : s'.alg = s.alg := by rw [State.alg, h.cfg_eq, State.alg]
theorem AgreeOnDefined.rsp_eq (h : AgreeOnDefined s s') : s'.rsp = s.rsp := by rw [h.1]
theorem AgreeOnDefined.readReg_eq (h : AgreeOnDefined s s') (r : BitVec 4) : s'.readReg r = s.readReg r := by
  rw [h.1]; rfl
theorem AgreeOnDefined.idxOut_eq (h : AgreeOnDefined s s') (idx : Byte) : s'.idxOut idx = s.idxOut idx := by
  rw [h.1]; rfl
theorem AgreeOnDefined.slotOut_eq (h : AgreeOnDefined s s') (slot : BitVec 4) : s'.slotOut slot = s.slotOut slot := by
  rw [h.1]; rfl
theorem AgreeOnDefined.slotUnregistered_eq (h : AgreeOnDefined s s') (slot : BitVec 4) :
    s'.slotUnregistered slot = s.slotUnregistered slot := by rw [h.1]; rfl
theorem AgreeOnDefined.inWin_eq (h : AgreeOnDefined s s') (d n : Duration) : s'.inWin d n = s.inWin d n := by
  rw [h.1]; rfl
theorem AgreeOnDefined.startsFrame_eq (h : AgreeOnDefined s s') (l : Level) (d : Duration) :
    s'.startsFrame l d = s.startsFrame l d := by rw [h.1]; rfl

/-- The type byte is compared only when there is one. -/
theorem AgreeOnDefined.slotMatches_eq (h : AgreeOnDefined s s') {q q' : Packet} (hq : PacketAgrees q q') (i : Nat) :
    s'.slotMatches q' i = s.slotMatches q i := by
  obtain ⟨hslot, -, -⟩ := h.slot i
  have hval : (s'.slot i).val = (s.slot i).val := by rw [hslot]
  have hmask : (s'.slot i).mask = (s.slot i).mask := by rw [hslot]
  have hsel : (s'.slot i).lensel = (s.slot i).lensel := by rw [hslot]
  rw [Bool.eq_iff_iff, slotMatches_iff, slotMatches_iff, SlotMatches, SlotMatches, Slot.Claims, Slot.Claims, h.nreg_eq,
    h.params_eq, hq.len, hval, hmask, hsel]
  refine and_congr_right fun _ => and_congr_right fun hpos => ?_
  rw [hq.read (by omega)]

theorem AgreeOnDefined.matchId_eq (h : AgreeOnDefined s s') {q q' : Packet} (hq : PacketAgrees q q') :
    s'.matchId q' = s.matchId q := by
  rw [State.matchId, h.nreg_eq, funext (h.slotMatches_eq hq), State.matchId]

/-! One update made to both states. The frame of the agreement is the update of the frame. -/

theorem AgreeOnDefined.withRsp (h : AgreeOnDefined s s') (st : Status) (d : Word) :
    AgreeOnDefined (s.withRsp st d) (s'.withRsp st d) := by
  obtain ⟨hframe, hrest⟩ := h
  exact ⟨congrArg (State.withRsp · st d) hframe, hrest⟩

theorem AgreeOnDefined.advanceFree (h : AgreeOnDefined s s') : AgreeOnDefined s.advanceFree s'.advanceFree := by
  obtain ⟨hframe, hrest⟩ := h
  exact ⟨congrArg State.advanceFree hframe, hrest⟩

theorem AgreeOnDefined.setPkt (h : AgreeOnDefined s s') (p : PktSel) {q q' : Packet} (hq : PacketAgrees q q') :
    AgreeOnDefined (s.setPkt p q) (s'.setPkt p q') := by
  obtain ⟨hframe, hrxp, htxp, hrest⟩ := h
  cases p
  · exact ⟨congrArg (State.setPkt · .rx q') hframe, hq, htxp, hrest⟩
  · exact ⟨congrArg (State.setPkt · .tx q') hframe, hrxp, hq, hrest⟩

theorem AgreeOnDefined.setSlot (h : AgreeOnDefined s s') (hlen : s.reg.slots.length = s'.reg.slots.length) (i : Nat)
    {v v' : Slot} (hv : SlotAgrees v v') : AgreeOnDefined (s.setSlot i v) (s'.setSlot i v') := by
  obtain ⟨hframe, hrxp, htxp, habuf, htxbuf, hslots⟩ := h
  refine ⟨congrArg (State.setSlot · i v') hframe, hrxp, htxp, habuf, htxbuf, fun k => ?_⟩
  by_cases hk : k = i
  · subst hk
    by_cases hlt : k < s.reg.slots.length
    · rw [State.setSlot_slot_self s k v hlt, State.setSlot_slot_self s' k v' (hlen ▸ hlt)]
      exact hv
    · have hout : s.setSlot k v = s := by
        rw [State.setSlot, List.set_eq_of_length_le (Nat.not_lt.mp hlt)]
      have hout' : s'.setSlot k v' = s' := by
        rw [State.setSlot, List.set_eq_of_length_le (hlen ▸ Nat.not_lt.mp hlt)]
      rw [hout, hout']
      exact hslots k
  · rw [State.setSlot_slot_ne s i k v hk, State.setSlot_slot_ne s' i k v' hk]
    exact hslots k

theorem AgreeOnDefined.stage (h : AgreeOnDefined s s') (hlen : s.reg.slots.length = s'.reg.slots.length) (i : Nat)
    {q q' : Packet} (hq : PacketAgrees q q') : AgreeOnDefined (s.stage i q) (s'.stage i q') := by
  obtain ⟨hslot, -, hprev⟩ := h.slot i
  refine h.setSlot hlen i ⟨?_, hq, hprev⟩
  rw [hslot]

theorem AgreeOnDefined.lockRegistry (h : AgreeOnDefined s s') : AgreeOnDefined s.lockRegistry s'.lockRegistry := by
  obtain ⟨hframe, hrest⟩ := h
  exact ⟨congrArg State.lockRegistry hframe, hrest⟩

theorem AgreeOnDefined.dispatched (h : AgreeOnDefined s s') (w : Word) :
    AgreeOnDefined (s.dispatched w) (s'.dispatched w) := by
  obtain ⟨hframe, hrest⟩ := h
  exact ⟨congrArg (State.dispatched · w) hframe, hrest⟩

theorem AgreeOnDefined.setNreg (h : AgreeOnDefined s s') (n : BitVec 5) :
    AgreeOnDefined { s with reg := { s.reg with nreg := n } } { s' with reg := { s'.reg with nreg := n } } := by
  obtain ⟨hframe, hrest⟩ := h
  exact ⟨congrArg (fun u : State => { u with reg := { u.reg with nreg := n } }) hframe, hrest⟩

theorem AgreeOnDefined.setCfg (h : AgreeOnDefined s s') (v : Half) :
    AgreeOnDefined { s with cfg := v } { s' with cfg := v } := by
  obtain ⟨hframe, hrest⟩ := h
  exact ⟨congrArg (fun u : State => { u with cfg := v }) hframe, hrest⟩

theorem AgreeOnDefined.clearSticky (h : AgreeOnDefined s s') (v : Half) :
    AgreeOnDefined (s.clearSticky v) (s'.clearSticky v) := by
  obtain ⟨hframe, hrest⟩ := h
  exact ⟨congrArg (State.clearSticky · v) hframe, hrest⟩

theorem AgreeOnDefined.stopTx (h : AgreeOnDefined s s') : AgreeOnDefined s.stopTx s'.stopTx := by
  obtain ⟨hframe, hrxp, htxp, habuf, -, hslots⟩ := h
  exact ⟨congrArg State.stopTx hframe, hrxp, htxp, habuf, nofun, hslots⟩

theorem AgreeOnDefined.setPhase (h : AgreeOnDefined s s') (ph : Phase) : AgreeOnDefined (s.setPhase ph) (s'.setPhase ph) := by
  obtain ⟨hframe, hrest⟩ := h
  exact ⟨congrArg (State.setPhase · ph) hframe, hrest⟩

theorem AgreeOnDefined.clearFrame (h : AgreeOnDefined s s') : AgreeOnDefined s.clearFrame s'.clearFrame := by
  obtain ⟨hframe, hrxp, htxp, -, htxbuf, hslots⟩ := h
  exact ⟨congrArg State.clearFrame hframe, hrxp, htxp, fun i hi => by simp at hi, htxbuf, hslots⟩

theorem AgreeOnDefined.recordTerr (h : AgreeOnDefined s s') (c : Cause) :
    AgreeOnDefined (s.recordTerr c) (s'.recordTerr c) := by
  obtain ⟨hframe, hrest⟩ := h
  exact ⟨congrArg (State.recordTerr · c) hframe, hrest⟩

theorem AgreeOnDefined.recordRx (h : AgreeOnDefined s s') {tr tr' : Bool} (htr : tr' = tr) :
    AgreeOnDefined (s.recordRx tr) (s'.recordRx tr') := by
  subst htr
  obtain ⟨hframe, hrest⟩ := h
  exact ⟨congrArg (State.recordRx · tr') hframe, hrest⟩

/-- The encoder with another cursor. -/
theorem AgreeOnDefined.setCursor (h : AgreeOnDefined s s') (c : Half) :
    AgreeOnDefined { s with enc := { s.enc with cursor := c } } { s' with enc := { s'.enc with cursor := c } } := by
  obtain ⟨hframe, hrest⟩ := h
  exact ⟨congrArg (fun u : State => { u with enc := { u.enc with cursor := c } }) hframe, hrest⟩

/-- An encoder started on byte buffers that agree below `txn`. -/
theorem AgreeOnDefined.setEnc (h : AgreeOnDefined s s') {e : Encoder} {txbuf : List Byte}
    (hread : ∀ i < e.txn.toNat, readByte e.txbuf i = readByte txbuf i) :
    AgreeOnDefined { s with enc := e } { s' with enc := { e with txbuf := txbuf } } := by
  obtain ⟨hframe, hrxp, htxp, habuf, -, hslots⟩ := h
  exact ⟨congrArg (fun u : State => { u with enc := { e with txbuf := txbuf } }) hframe, hrxp, htxp, habuf, hread, hslots⟩

/-- A decoder with byte buffers that agree on the whole bytes received. -/
theorem AgreeOnDefined.setDec (h : AgreeOnDefined s s') {dec : Decoder} {abuf : List Byte}
    (hread : ∀ i < dec.tbits.toNat / 8, readByte dec.abuf i = readByte abuf i) :
    AgreeOnDefined { s with dec := dec } { s' with dec := { dec with abuf := abuf } } := by
  obtain ⟨hframe, hrxp, htxp, -, htxbuf, hslots⟩ := h
  exact ⟨congrArg (fun u : State => { u with dec := { dec with abuf := abuf } }) hframe, hrxp, htxp, hread, htxbuf, hslots⟩

end

/-! ### The decoder -/

/-- Two outcomes of a pulse record with one event, one cause, and states that agree. -/
def PulseOut.Agrees (o o' : PulseOut) : Prop := o'.ev = o.ev ∧ o'.cause = o.cause ∧ AgreeOnDefined o.state o'.state

theorem ite_pulseAgrees {c c' : Prop} [Decidable c] [Decidable c'] {o o' u u' : PulseOut} (hc : c' ↔ c)
    (h : o.Agrees o') (hu : u.Agrees u') : (if c then o else u).Agrees (if c' then o' else u') := by
  by_cases hcond : c
  · rwa [if_pos hcond, if_pos (hc.mpr hcond)]
  · rwa [if_neg hcond, if_neg (mt hc.mp hcond)]

section

variable {s s' : State}

theorem AgreeOnDefined.ignored (h : AgreeOnDefined s s') :
    PulseOut.Agrees { state := s, ev := .ignored, cause := .none } { state := s', ev := .ignored, cause := .none } :=
  ⟨rfl, rfl, h⟩

theorem AgreeOnDefined.abort (h : AgreeOnDefined s s') (c : Cause) : (s.abort c).Agrees (s'.abort c) :=
  ⟨rfl, rfl, h.clearFrame.recordTerr c⟩

theorem AgreeOnDefined.advance (h : AgreeOnDefined s s') (ph : Phase) : (s.advance ph).Agrees (s'.advance ph) :=
  ⟨rfl, rfl, h.setPhase ph⟩

theorem AgreeOnDefined.abortReeval (h : AgreeOnDefined s s') (c : Cause) (l : Level) (d : Duration) :
    (s.abortReeval c l d).Agrees (s'.abortReeval c l d) := by
  have habort := h.clearFrame.recordTerr c
  refine ⟨rfl, rfl, ?_⟩
  rw [State.abortReeval, State.abortReeval, h.startsFrame_eq]
  split
  · exact habort.setPhase .headHigh
  · exact habort

/-- A bit either completes a byte, which both shift registers hold, or leaves the bytes received as they are. -/
theorem AgreeOnDefined.takeBit (h : AgreeOnDefined s s') (hi : s.Inv) (hi' : s'.Inv) (b : Bool) :
    (s.takeBit b).Agrees (s'.takeBit b) := by
  have htbits := h.tbits_eq
  have hlen : s'.dec.abuf.length = s.dec.abuf.length := by rw [hi'.abuf_length, hi.abuf_length, h.params_eq]
  have hcap := hi.abuf_length
  obtain ⟨-, -, -, habuf, -⟩ := id h
  obtain ⟨hmax, hout⟩ | ⟨hmax, buf, hbuf, hst, hev, hcause, hread⟩ := takeBit_cases s b <;>
    obtain ⟨hmax', hout'⟩ | ⟨hmax', buf', hbuf', hst', hev', hcause', hread'⟩ := takeBit_cases s' b
  · rw [hout, hout']
    exact h.abort .tooLong
  · exact absurd (htbits.trans hmax) hmax'
  · exact absurd (htbits.symm.trans hmax') hmax
  · rw [PulseOut.eq_mk hst hev hcause, PulseOut.eq_mk hst' hev' hcause']
    rw [htbits, h.sr_eq] at *
    refine ⟨rfl, rfl, h.setDec fun i hlt => ?_⟩
    have hlt' : i < (s.dec.tbits + 1#16).toNat / 8 := hlt
    rw [toNat_add_one_of_ne_max hmax] at hlt'
    by_cases hin : i < s.dec.abuf.length
    · rw [hread i hin, hread' i (hlen ▸ hin), h.params_eq]
      split
      · rfl
      · exact habuf i (by omega)
    · rw [readByte_of_ge _ _ (hbuf ▸ Nat.not_lt.mp hin), readByte_of_ge _ _ (hbuf' ▸ hlen ▸ Nat.not_lt.mp hin)]

/-- A delivered packet takes only whole bytes received. -/
theorem AgreeOnDefined.delivered (h : AgreeOnDefined s s') (hi : s.Inv) (hi' : s'.Inv) :
    PacketAgrees (s.delivered (s.dec.tbits.toNat / 8)) (s'.delivered (s'.dec.tbits.toNat / 8)) := by
  rw [h.tbits_eq]
  obtain ⟨-, -, -, habuf, -⟩ := id h
  have hlen : s'.rxp.data.length = s.rxp.data.length := by rw [hi'.rxp_ok.1, hi.rxp_ok.1, h.params_eq]
  obtain ⟨hdata, hread⟩ := delivered_data s (s.dec.tbits.toNat / 8) hi.rxp_ok.1
  obtain ⟨hdata', hread'⟩ := delivered_data s' (s.dec.tbits.toNat / 8) hi'.rxp_ok.1
  refine ⟨by rw [hdata, hdata', hlen], ?_, h.nowMs_eq.symm, h.rxSrc_eq.symm, ?_, fun i hlt => ?_⟩
  · rw [State.delivered, State.delivered, h.params_eq]
  · rw [State.delivered, State.delivered, h.params_eq]
  · rw [toNat_delivered_len s _ hi.params_legal.1.2, Nat.lt_min] at hlt
    obtain ⟨hltn, hltcap⟩ := hlt
    rw [hread i hltcap, hread' i (h.params_eq ▸ hltcap), if_pos hltn, if_pos hltn, habuf i hltn]

theorem AgreeOnDefined.complete (h : AgreeOnDefined s s') (hi : s.Inv) (hi' : s'.Inv) :
    s.complete.Agrees s'.complete := by
  refine ite_pulseAgrees (by rw [h.tbits_eq]) (h.abort .empty)
    (ite_pulseAgrees (by rw [h.tbits_eq]) (h.abort .partialByte) ⟨rfl, rfl, ?_⟩)
  exact ((h.setPkt .rx (h.delivered hi hi')).recordRx (by rw [h.params_eq, h.tbits_eq])).clearFrame

/-- Every branch of the decoder asks for elements that are alike in both states. -/
theorem AgreeOnDefined.pulse (h : AgreeOnDefined s s') (hi : s.Inv) (hi' : s'.Inv) (l : Level) (d : Duration) :
    (s.pulse l d).Agrees (s'.pulse l d) := by
  have hwin (d : Duration) (n : Params → Duration) : s'.inWin d (n s'.params) = true ↔ s.inWin d (n s.params) = true := by
    rw [h.inWin_eq, h.params_eq]
  have hend : s'.params.endGap < d ↔ s.params.endGap < d := by rw [h.params_eq]
  have hstart : PulseOut.Agrees
      { state := { s with dec := { s.dec with phase := .bitLow, tbits := 0#16, sr := 0#8 } }, ev := .accepted, cause := .none }
      { state := { s' with dec := { s'.dec with phase := .bitLow, tbits := 0#16, sr := 0#8 } }
        ev := .accepted
        cause := .none } := ⟨rfl, rfl, h.clearFrame.setPhase .bitLow⟩
  refine ite_pulseAgrees (by rw [h.params_eq]) ?_ ?_
  · rw [State.pulseGlitch, State.pulseGlitch, h.phase_eq]
    cases s.dec.phase with
    | idle => exact h.ignored
    | headHigh | bitLow | bitHigh => exact h.abort .glitch
  · rw [h.phase_eq]
    cases s.dec.phase with
    | idle => exact ite_pulseAgrees (by rw [h.startsFrame_eq]) (h.advance _) h.ignored
    | headHigh =>
      cases l with
      | low => exact h.abortReeval _ _ _
      | high => exact ite_pulseAgrees (hwin _ fun p => p.hdrHigh) hstart (h.abortReeval _ _ _)
    | bitLow =>
      cases l with
      | low => exact ite_pulseAgrees (hwin _ fun p => p.bitLow) (h.advance _) (h.abortReeval _ _ _)
      | high => exact ite_pulseAgrees hend (h.complete hi hi') (h.abortReeval _ _ _)
    | bitHigh =>
      cases l with
      | low => exact h.abortReeval _ _ _
      | high =>
        have hnobit := ite_pulseAgrees hend (h.complete hi hi') (h.abortReeval .window .high d)
        exact ite_pulseAgrees (hwin _ fun p => p.zeroHigh) (h.takeBit hi hi' _)
          (ite_pulseAgrees (hwin _ fun p => p.oneHigh) (h.takeBit hi hi' _) hnobit)

theorem PulseOut.Agrees.answer {o o' : PulseOut} (h : o.Agrees o') : AgreeOnDefined o.answer o'.answer := by
  obtain ⟨hev, hcause, hst⟩ := h
  rw [PulseOut.answer, PulseOut.answer, hev, hcause, hst.phase_eq]
  exact hst.withRsp _ _

end

/-! ### Commands -/

/-- Both outcomes are next states, which agree in everything but undefined bytes, the response included. -/
def ResultsAgree (r r' : Result) : Prop := ∃ t t', r = .next t ∧ r' = .next t' ∧ AgreeOnDefined t t'

section

variable {s s' : State}

theorem AgreeOnDefined.respond {u u' : State} (h : AgreeOnDefined u u') {d d' : Word} (hd : d' = d) :
    ResultsAgree (u.respond d) (u'.respond d') :=
  ⟨_, _, rfl, rfl, hd ▸ h.withRsp .ok d'⟩

theorem AgreeOnDefined.raise (h : AgreeOnDefined s s') (st : Status) : ResultsAgree (s.raise st) (s'.raise st) :=
  ⟨_, _, rfl, rfl, h.withRsp st _⟩

theorem ite_resultsAgree {c c' : Prop} [Decidable c] [Decidable c'] {r r' q q' : Result} (hc : c' ↔ c)
    (h : ¬c → ResultsAgree r r') (hq : c → ResultsAgree q q') :
    ResultsAgree (if c then q else r) (if c' then q' else r') := by
  by_cases hcond : c
  · rw [if_pos hcond, if_pos (hc.mpr hcond)]
    exact hq hcond
  · rw [if_neg hcond, if_neg (mt hc.mp hcond)]
    exact h hcond

/-- A guard that refuses the command in both states or in none. -/
theorem AgreeOnDefined.guard (h : AgreeOnDefined s s') {b b' : Bool} {st : Status} {r r' : Result} (hb : b' = b)
    (hr : ¬b = true → ResultsAgree r r') :
    ResultsAgree (if b = true then s.raise st else r) (if b' = true then s'.raise st else r') :=
  ite_resultsAgree (by rw [hb]) hr fun _ => h.raise st

/-- A byte below `len` is defined, and one above is the free byte both states draw. -/
theorem AgreeOnDefined.respondByte (h : AgreeOnDefined s s') {q q' : Packet} (hq : PacketAgrees q q') (idx : Byte) :
    ResultsAgree (s.respondByte q idx) (s'.respondByte q' idx) := by
  refine ite_resultsAgree (by rw [hq.len]) (fun _ => ?_) fun hlt => ?_
  · exact h.advanceFree.respond (by rw [h.freeByte_eq])
  · exact h.respond (by rw [hq.read hlt])

theorem AgreeOnDefined.exec_reg (h : AgreeOnDefined s s') (hlen : s.reg.slots.length = s'.reg.slots.length)
    (val mask : Byte) (lensel : BitVec 2) :
    ResultsAgree (exec (.reg val mask lensel) s) (exec (.reg val mask lensel) s') := by
  simp only [exec, execReg]
  cases lenSelOf lensel with
  | none => exact h.raise _
  | some sel =>
    refine h.guard h.lock_eq fun _ => ite_resultsAgree (by rw [h.nreg_eq, h.params_eq]) (fun _ => ?_) fun _ => h.raise _
    obtain ⟨hslot, hcur, hprev⟩ := h.slot s.reg.nreg.toNat
    rw [h.nreg_eq]
    refine ((h.setSlot hlen _ ?_).setNreg _).respond rfl
    exact ⟨by rw [hslot], hcur, hprev⟩

theorem AgreeOnDefined.exec_disp (h : AgreeOnDefined s s') (hlen : s.reg.slots.length = s'.reg.slots.length)
    (p : PktSel) : ResultsAgree (exec (.disp p) s) (exec (.disp p) s') := by
  have hpkt := h.pkt p
  have hend {u u' : State} (hu : AgreeOnDefined u u') (w : Word) : ResultsAgree (u.endDisp w) (u'.endDisp w) :=
    ⟨_, _, rfl, rfl, hu.dispatched w⟩
  refine ite_resultsAgree (by rw [h.params_eq, h.alg_eq, hpkt.valid_eq]) (fun _ => hend h.lockRegistry _) fun _ => ?_
  rw [matchId_lockRegistry, matchId_lockRegistry, h.matchId_eq hpkt]
  cases s.matchId (s.pkt p) with
  | none => exact hend h.lockRegistry _
  | some i => exact hend (h.lockRegistry.stage hlen i hpkt) _

theorem AgreeOnDefined.exec_enc (h : AgreeOnDefined s s') (hi : s.Inv) (hi' : s'.Inv) (p : PktSel) :
    ResultsAgree (exec (.enc p) s) (exec (.enc p) s') := by
  have hpkt := h.pkt p
  obtain ⟨-, hfit⟩ := hi.pkt_ok p
  refine h.guard h.active_eq fun _ => ?_
  simp only [hpkt.len]
  refine (h.setEnc fun i hlt => ?_).respond rfl
  have hlt' : i < (s.pkt p).len.toNat := hlt
  rw [readByte_copyBytes _ _ _ _ (by rw [hi.txbuf_length]; omega),
    readByte_copyBytes _ _ _ _ (by rw [hi'.txbuf_length, h.params_eq]; omega), if_pos hlt', if_pos hlt', hpkt.read hlt']

theorem AgreeOnDefined.exec_txpop (h : AgreeOnDefined s s') : ResultsAgree (exec .txpop s) (exec .txpop s') := by
  obtain ⟨-, -, -, -, htxbuf, -⟩ := id h
  have hrecord : s'.nextRecord = s.nextRecord := by
    rw [State.nextRecord, State.nextRecord, h.params_eq, h.txn_eq, h.cursor_eq, recAt_congr _ _ _ _ _ htxbuf]
  refine ite_resultsAgree (by rw [h.active_eq]) (fun _ => h.respond rfl) fun _ => ?_
  refine ite_resultsAgree (by rw [h.cursor_eq, h.total_eq]) (fun _ => ?_) fun _ => h.stopTx.respond hrecord
  rw [h.cursor_eq]
  exact (h.setCursor _).respond hrecord

/-- The same command, run from two states that agree. -/
theorem AgreeOnDefined.exec_agrees (h : AgreeOnDefined s s') (hi : s.Inv) (hi' : s'.Inv) (i : Instr) :
    ResultsAgree (exec i s) (exec i s') := by
  have hpkt := h.pkt
  have hlen : s.reg.slots.length = s'.reg.slots.length := by rw [hi.slots_length, hi'.slots_length, h.params_eq]
  have hfit (p : PktSel) : (s.pkt p).len.toNat ≤ (s.pkt p).data.length := by
    obtain ⟨hdata, hle⟩ := hi.pkt_ok p
    exact hdata ▸ hle
  cases i with
  | nop => exact h.respond rfl
  | pulse l d => exact ⟨_, _, exec_pulse l d s, exec_pulse l d s', (h.pulse hi hi' l d).answer⟩
  | pnew p src =>
    obtain ⟨hdata, -⟩ := hpkt p
    have hnew : PacketAgrees { s.pkt p with len := 0#8, ovf := false, time := s.nowMs, src := src }
        { s'.pkt p with len := 0#8, ovf := false, time := s'.nowMs, src := src } :=
      ⟨hdata, rfl, h.nowMs_eq.symm, rfl, rfl, fun i hi => absurd hi (Nat.not_lt_zero i)⟩
    exact (h.setPkt p hnew).respond rfl
  | push p val =>
    refine (h.setPkt p ?_).respond rfl
    rw [h.params_eq]
    exact (hpkt p).push _ (hi.pkt_ok p).1.ge val
  | wrb p idx val =>
    refine h.guard (h.idxOut_eq idx) fun hin => (h.setPkt p ((hpkt p).wrb ?_ val)).respond rfl
    rw [(hi.pkt_ok p).1]
    exact Nat.not_le.mp (mt idxOut_of_ge hin)
  | rdb p idx => exact h.guard (h.idxOut_eq idx) fun _ => h.respondByte (hpkt p) idx
  | pinfo p => exact h.respond (by rw [h.params_eq, h.alg_eq, (hpkt p).pinfoWord_eq])
  | ptime p =>
    obtain ⟨-, -, htime, -⟩ := hpkt p
    exact h.respond htime.symm
  | page p =>
    obtain ⟨-, -, htime, -⟩ := hpkt p
    exact h.respond (by rw [h.nowMs_eq, htime])
  | inv p => exact (h.setPkt p ((hpkt p).mapData _ (hfit p))).respond rfl
  | brev p => exact (h.setPkt p ((hpkt p).mapData _ (hfit p))).respond rfl
  | ckgen p inverted =>
    refine (h.setPkt p ?_).respond rfl
    rw [h.alg_eq]
    exact (hpkt p).seal _ _ (hfit p)
  | ckcalc p => exact h.respond (by rw [h.alg_eq, (hpkt p).ck_eq])
  | pcopy p => exact (h.setPkt p (hpkt p.other)).respond rfl
  | reg val mask lensel => exact h.exec_reg hlen val mask lensel
  | disp p => exact h.exec_disp hlen p
  | xfer slot =>
    refine h.guard (by rw [h.slotOut_eq, h.slotUnregistered_eq]) fun _ => ?_
    exact (h.setSlot hlen _ (h.slot _).transfer).respond rfl
  | sinfo slot =>
    refine h.guard (h.slotOut_eq slot) fun _ => ite_resultsAgree (by rw [h.slotUnregistered_eq]) (fun _ => ?_) fun _ =>
      h.respond rfl
    exact h.respond (h.slot _).sinfoWord_eq
  | srdb slot which idx =>
    refine h.guard (by rw [h.slotOut_eq, h.idxOut_eq]) fun _ => ?_
    obtain ⟨hnone, hnone'⟩ | ⟨q, q', hsome, hsome', hq⟩ := (h.slot slot.toNat).packet? which
    · rw [hnone, hnone']
      exact h.raise _
    · rw [hsome, hsome']
      exact h.respondByte hq idx
  | sload slot p =>
    obtain ⟨hslot, hcur, -⟩ := h.slot slot.toNat
    refine h.guard (h.slotOut_eq slot) fun _ => ite_resultsAgree (by rw [hslot]) (fun _ => h.raise _) fun _ => ?_
    exact (h.setPkt p hcur).respond rfl
  | enc p => exact h.exec_enc hi hi' p
  | txpop => exact h.exec_txpop
  | txabort => exact h.stopTx.respond rfl
  | rdreg r =>
    simp only [exec, execRdreg, h.readReg_eq]
    cases s.readReg r with
    | none => exact h.raise _
    | some d => exact h.respond rfl
  | wrreg r v =>
    refine h.guard rfl fun _ => ite_resultsAgree Iff.rfl (fun _ => h.guard rfl fun _ => ?_) fun _ => h.raise _
    exact (h.setCfg v).respond rfl
  | clrst v => exact ite_resultsAgree Iff.rfl (fun _ => h.raise _) fun _ => (h.clearSticky v).respond rfl

end

/-- Settles O20: the response is one of the elements in which the next states agree. -/
theorem undefinedBytesUnobservable : Obligations.UndefinedBytesUnobservable := by
  intro i s s' t t' hi hi' h ht ht'
  obtain ⟨u, u', hu, hu', hagrees⟩ := h.exec_agrees hi hi' i
  obtain rfl : t = u := Host.Outcome.next.inj (ht.symm.trans hu)
  obtain rfl : t' = u' := Host.Outcome.next.inj (ht'.symm.trans hu')
  exact ⟨hagrees.rsp_eq.symm, hagrees⟩

end Sys2Proof.Machine
